-- ==== Sys2Proof/Word.lean ====
section
/-! DEFINITION. The word types of the block, one abbreviation per register width of spec/10_state.md,
so that the core BitVec lemmas apply to each of them. -/

namespace Sys2Proof

/-- An event word, the 16-bit encoding of one atomic action (R80). -/
abbrev EventWord := BitVec 16

/-- A one-bit operand field, `g` or `r` (R82). -/
abbrev Bit := BitVec 1

/-- A 16-bit phase, `PH` (R23). -/
abbrev Phase := BitVec 16

/-- An 8-bit phase increment, `GR` (R24). -/
abbrev Granule := BitVec 8

/-- An 11-bit ramp quantity, `DSC` and `TGT` (R25, R26). -/
abbrev Span := BitVec 11

/-- A 10-bit amplitude or converter value: `OUT`, `PAR[i]`, `DUTY`, `v` (R27, R29, R39, R43). -/
abbrev Level := BitVec 10

/-- The 7-bit debounce counter, `DB` (R28). -/
abbrev Debounce := BitVec 7

/-- A converter channel, `CH` (R30). -/
abbrev Channel := BitVec 2

/-- One curve-table entry, 16 bits (R35). -/
abbrev Entry := BitVec 16

/-- The curve table, 256 entries (R35). -/
abbrev CurveTable := Vector Entry 256

/-- The parameter store `PAR[0..3]` (R29). -/
abbrev ParamStore := Vector Level 4

end Sys2Proof
end

