-- ==== Sys2Proof/Config.lean ====
section
/-! DEFINITION. The implementation parameters of spec/00_scope.md R9 to R13, and the values they take at
reset, which are left open: each is built from a constant without a body, so that nothing can be proved of it
beyond the constraint the spec puts on it. -/

namespace Sys2Proof

/-- The parameters of R9 to R13. They are fixed for a run: State holds them and no action writes them.
Their constraints are `Params.legal` in WellFormed.lean. Assumption log 1. -/
structure Params where
  /-- `SAMPLE_INTERVAL` (R9): the reload value of the sample countdown. -/
  sampleInterval : Nat
  /-- `CD_WIDTH` (R10): the bit width of the countdown register. -/
  cdWidth : Nat
  /-- `F_TICK` in Hz (R11), read by no rule. -/
  fTick : Nat
  /-- `PARAM_INIT[0..3]` (R12): the control parameters at reset. -/
  paramInit : ParamStore
  /-- `CURVE_TABLE[0..255]` (R13, R35). -/
  curveTable : CurveTable
  deriving DecidableEq, Repr

namespace Config

/-- Free: how far `SAMPLE_INTERVAL` exceeds its least value 1 (R9). Assumption log 3. -/
opaque freeIntervalExcess : Nat

/-- Free: how many bits `CD_WIDTH` has beyond the fewest that hold `SAMPLE_INTERVAL` (R10). Assumption log 3. -/
opaque freeWidthExcess : Nat

/-- Free: `F_TICK` (R11). Assumption log 3. -/
opaque freeTickRate : Nat

/-- Free: `PARAM_INIT` (R12). Assumption log 3. -/
opaque freeParamInit : ParamStore

/-- Free: the numbers the curve table is cut from (R13). Assumption log 2. -/
opaque freeEntry : Nat → Entry

/-- The falling sequence cut from `f`: entry 0 is 65535, and each later entry is `f`'s value where that does
not rise above the entry before, and that entry again where it would. Every table that meets R130 is its own
cut, and every cut meets R130, so a free `f` stands for exactly the tables R130 accepts. -/
def fallingEntry (f : Nat → Entry) : Nat → Entry
  | 0 => 65535#16
  | n + 1 => if f (n + 1) ≤ fallingEntry f n then f (n + 1) else fallingEntry f n

/-- The table of the first 256 values of `fallingEntry f`. -/
def fallingTable (f : Nat → Entry) : CurveTable :=
  Vector.ofFn fun i => fallingEntry f i.val

/-- The parameters the machine is reset with: any that R9 to R13 and R130 allow. -/
def params : Params where
  sampleInterval := freeIntervalExcess + 1
  cdWidth := Nat.log2 (freeIntervalExcess + 1) + 1 + freeWidthExcess
  fTick := freeTickRate
  paramInit := freeParamInit
  curveTable := fallingTable freeEntry

end Config

end Sys2Proof
end

