-- ==== Sys2Proof/Syntax.lean ====
section
/-! DEFINITION. The operations of the block (R81), one constructor per row of spec/opcode_table.json, and
the source items of its assembler syntax (R89) with the pseudo-instructions (R90). -/

namespace Sys2Proof

/-- One atomic action with the environment's values it reads (R80, R82). The operand types have the widths of
the encoded fields, so every term is an instruction. -/
inductive Instr where
  /-- `TICK`: one firing of the periodic timer event (R100). -/
  | tick
  /-- `ENV g`: one envelope step, `g` the gate pin level, 0 = asserted (R111, R150). -/
  | env (g : Bit)
  /-- `CLRU`: clear the update-due flag (R112). -/
  | clru
  /-- `SAMP r, v`: one sampler step, `r` the converter's ready answer, `v` its value (R114, R190). -/
  | samp (r : Bit) (v : Level)
  /-- `LOOP`: spin, or end of a loop iteration with no sample due (R113). -/
  | loop
  deriving DecidableEq, Repr

/-- One source item of the assembler syntax (R89): the five operations and the pseudo-instructions of R90,
with operands as written, numbers not yet checked against their ranges. -/
inductive AsmItem where
  | tick
  | env (g : Nat)
  | clru
  | samp (r v : Nat)
  | loop
  | gateOn
  | gateOff
  | start
  | poll
  | done (v : Nat)
  | service (g : Nat)
  | cycle (g : Nat)
  deriving DecidableEq, Repr

end Sys2Proof
end

