-- ==== Sys2Proof/WellFormed.lean ====
section
/-! DEFINITION. The checks the spec puts on what is given to the model: the operand ranges of a source item
(R89) and the constraints on the parameters (R9, R10, R130). An `Instr` needs none: its operand types have the
widths of the encoded fields (R82). -/

namespace Sys2Proof

/-- The operand ranges of R89: "An operand out of range (`ENV 2`, `SAMP 1, 1024`) does not assemble." -/
def AsmItem.wellFormed : AsmItem → Bool
  | .tick => true
  | .env g => decide (g < 2)
  | .clru => true
  | .samp r v => decide (r < 2) && decide (v < 1024)
  | .loop => true
  | .gateOn => true
  | .gateOff => true
  | .start => true
  | .poll => true
  | .done v => decide (v < 1024)
  | .service g => decide (g < 2)
  | .cycle g => decide (g < 2)

/-- The curve tables a model accepts (R130): entry 0 is 65535, and the entries do not increase. -/
abbrev CurveTable.legal (t : CurveTable) : Prop :=
  t[0] = 65535#16 ∧ ∀ i : Fin 255, t[i.val + 1].toNat ≤ t[i.val].toNat

/-- The parameter values a model accepts (R9, R10, R130). R12's range 0..1023 is the type of `PARAM_INIT`,
and R11 puts no constraint on `F_TICK`. -/
abbrev Params.legal (p : Params) : Prop :=
  1 ≤ p.sampleInterval ∧ p.sampleInterval < 2 ^ p.cdWidth ∧ p.curveTable.legal

end Sys2Proof
end

