-- ==== Sys2Proof/Decode.lean ====
section
/-! DEFINITION. Decoding of an event word, total on every 16-bit word (R86, R87), the encoder written from the
same table (R81, R83 to R85), the opcode table's rows as data, and the assembler (R89, R90). -/

namespace Sys2Proof

/-- Why a word has no meaning. R86 gives one reason. -/
inductive DecodeError where
  /-- A reserved op, or a must-be-zero bit that is 1 (R86). -/
  | reservedWord
  deriving DecidableEq, Repr

/-- The operation field, `word[15:13]` (R81). -/
def opField (w : EventWord) : BitVec 3 := w.extractLsb' 13 3

/-- `g = word[0]` (R82). -/
def gField (w : EventWord) : Bit := w.extractLsb' 0 1

/-- `r = word[10]` (R82). -/
def rField (w : EventWord) : Bit := w.extractLsb' 10 1

/-- `v = word[9:0]` (R82). -/
def vField (w : EventWord) : Level := w.extractLsb' 0 10

/-- The decoder of R87. -/
def decode (w : EventWord) : Except DecodeError Instr :=
  if opField w = 0b001#3 ∧ w.extractLsb' 0 13 = 0#13 then .ok .tick
  else if opField w = 0b010#3 ∧ w.extractLsb' 1 12 = 0#12 then .ok (.env (gField w))
  else if opField w = 0b011#3 ∧ w.extractLsb' 0 13 = 0#13 then .ok .clru
  else if opField w = 0b100#3 ∧ w.extractLsb' 11 2 = 0#2 then .ok (.samp (rField w) (vField w))
  else if opField w = 0b101#3 ∧ w.extractLsb' 0 13 = 0#13 then .ok .loop
  else .error .reservedWord

/-- The word of an instruction (R83 to R85). -/
def encode : Instr → EventWord
  | .tick => 0x2000#16
  | .env g => 0x4000#16 ||| g.setWidth 16
  | .clru => 0x6000#16
  | .samp r v => 0x8000#16 ||| (r.setWidth 16 <<< 10) ||| v.setWidth 16
  | .loop => 0xA000#16

/-- One row of spec/opcode_table.json: a word is of the row when `word &&& mask = pattern`. -/
structure OpRow where
  mnemonic : String
  pattern : EventWord
  mask : EventWord
  deriving DecidableEq, Repr

/-- The row of an instruction (opcode_table.json; R83 to R85). -/
def rowOf : Instr → OpRow
  | .tick => ⟨"TICK", 0x2000#16, 0xFFFF#16⟩
  | .env _ => ⟨"ENV", 0x4000#16, 0xFFFE#16⟩
  | .clru => ⟨"CLRU", 0x6000#16, 0xFFFF#16⟩
  | .samp _ _ => ⟨"SAMP", 0x8000#16, 0xF800#16⟩
  | .loop => ⟨"LOOP", 0xA000#16, 0xFFFF#16⟩

/-- The five rows of opcode_table.json, in its order. -/
def opRows : List OpRow :=
  [rowOf .tick, rowOf (.env 0#1), rowOf .clru, rowOf (.samp 0#1 0#10), rowOf .loop]

/-- The actions a source item stands for (R89, R90). Where an item as a whole is enabled, `CYCLE g` among them, is
`State.itemEnabled` in Machine/Items.lean; where each word of it is, is R110's. Assumption log 20. -/
def AsmItem.expand : AsmItem → List Instr
  | .tick => [.tick]
  | .env g => [.env (BitVec.ofNat 1 g)]
  | .clru => [.clru]
  | .samp r v => [.samp (BitVec.ofNat 1 r) (BitVec.ofNat 10 v)]
  | .loop => [.loop]
  | .gateOn => [.env 0#1]
  | .gateOff => [.env 1#1]
  | .start => [.samp 0#1 0#10]
  | .poll => [.samp 0#1 0#10]
  | .done v => [.samp 1#1 (BitVec.ofNat 10 v)]
  | .service g => [.env (BitVec.ofNat 1 g), .clru]
  | .cycle g => [.tick, .env (BitVec.ofNat 1 g), .clru, .loop]

/-- Assemble one source item into its event words; none where an operand is out of range (R89). -/
def AsmItem.assemble (a : AsmItem) : Option (List EventWord) :=
  if a.wellFormed then some (a.expand.map encode) else none

/-- The instruction the decoder reads from a word numbered as spec/opcode_table.json numbers it: one 16-bit
word, bit 0 least significant, every bit from `nbits` up taken as 0. -/
def decodeTableWord (nbits w : Nat) : Option Instr :=
  match decode (BitVec.ofNat 16 (w % 2 ^ nbits)) with
  | .ok i => some i
  | .error _ => none

end Sys2Proof
end

