-- ==== Sys2Proof/Machine/State.lean ====
section
/-! DEFINITION. The state of the block (spec/10_state.md R20 to R39) as plain data, the ways a step can stop, and
the state after reset (R50, R240). -/

namespace Sys2Proof.Machine

/-- `ST`, the envelope state (R22). Its 2-bit code is `Stage.code` in Ops.lean; code 3 is not a state. -/
inductive Stage where
  | idle
  | attacking
  | decayRelease
  deriving DecidableEq, Repr

/-- `LPC`, the consumer's loop position (R36). Its 2-bit code is `LoopPos.code` in Ops.lean; code 3 is not a
position. -/
inductive LoopPos where
  | top
  | clru
  | schk
  deriving DecidableEq, Repr

/-- One observable HAL event (R230). -/
inductive HalEvent where
  /-- `duty(x)`: the call `setOutputDuty(x)` (R40). -/
  | duty (x : Level)
  /-- `start(ch)`: the multiplexer is set to `ch` and a conversion is started (R41). -/
  | start (ch : Channel)
  deriving DecidableEq, Repr

/-- Every piece of state the spec gives the block, with its parameters and the two records of the model's own. -/
structure State where
  /-- `ST` (R22). -/
  st : Stage
  /-- `PH` (R23). -/
  ph : Phase
  /-- `GR` (R24). -/
  gr : Granule
  /-- `DSC` (R25). -/
  dsc : Span
  /-- `TGT` (R26). -/
  tgt : Span
  /-- `OUT` (R27). -/
  out : Level
  /-- `DB` (R28). -/
  db : Debounce
  /-- `PAR[0..3]`: attack, decay, sustain, release (R29). -/
  par : ParamStore
  /-- `CH` (R30). -/
  ch : Channel
  /-- `STARTED` (R31). -/
  started : Bool
  /-- `UPD`, the update-due flag (R32). -/
  upd : Bool
  /-- `SMP`, the sample-due flag (R32). -/
  smp : Bool
  /-- `CD`, the sample countdown (R34), a `CD_WIDTH`-bit number. Assumption log 5. -/
  cd : Nat
  /-- `LPC` (R36). -/
  lpc : LoopPos
  /-- `DUTY` (R39): none before the first tick, when it "holds no value" (R240). Assumption log 4. -/
  duty : Option Level
  /-- The HAL events so far, oldest first (R230). The model's own record: assumption log 6. -/
  events : List HalEvent
  /-- The event words still to run, the next one first (R80). The model's own record: assumption log 7. -/
  sched : List EventWord
  /-- The parameters of R9 to R13, `CURVE_TABLE` (R35) among them; no action writes them. Assumption log 1. -/
  params : Params
  deriving DecidableEq, Repr

/-- The ways the machine stops. The hardware has no fault (R210): each of these says that the schedule given to
the model is not, or not yet, a run of the block. -/
inductive Fault where
  /-- Raised by a meaning: a consumer word that is not enabled in this state "has no step" (R115). Raised by `runItem`
  in Safety.lean for a source item that R90 does not enable. Safe: the hardware never takes such a step. -/
  | notEnabled
  /-- Raised by `step`: no event word is left in the schedule, which is a finite prefix of an infinite run (R261; the
  schedule is the model's, assumption log 7). It is no end of the run, which `InfiniteRun` in Safety.lean carries on.
  Safe: nothing is claimed of what comes after. -/
  | scheduleEmpty
  deriving DecidableEq, Repr

/-- The words the model gives no meaning. -/
inductive Refusal where
  /-- Raised by `exec` for an instruction that has no meaning yet. Safe. -/
  | notModelled (mnemonic : String)
  /-- Raised by `step`: a reserved word spells no action (R86). Safe: no run of the block holds one. -/
  | reservedWord
  deriving DecidableEq, Repr

/-- The reset state under parameters `p` (R50, R240). -/
def State.resetWith (p : Params) : State where
  st := .idle
  ph := 0#16
  gr := 1#8
  dsc := 0#11
  tgt := 0#11
  out := 0#10
  db := 0#7
  par := p.paramInit
  ch := 0#2
  started := false
  upd := false
  smp := false
  cd := p.sampleInterval
  lpc := .top
  duty := none
  events := []
  sched := []
  params := p

/-- The machine right after reset, under parameters left free within R9 to R13 and R130. -/
def State.reset : State := State.resetWith Config.params

end Sys2Proof.Machine
end

