-- ==== Sys2Proof/Machine/Curve.lean ====
section
/-! DEFINITION. The curve table's reads and the two functions over it (spec/41_curve.md): the interpolating lookup
`curveValue` (R132, R133) and `granule` (R137). Exact integers, with floor at each division (R16, R139). -/

namespace Sys2Proof.Machine

/-- `ROM(i)`, curve-table entry `i` (R17, R60). -/
def rom (t : CurveTable) (i : BitVec 8) : Nat := (t[i.toNat]'(i.isLt)).toNat

/-- The entry that ends segment `i`: the next entry, and 0 for the last segment (R132, R133). -/
def segmentEnd (t : CurveTable) (i : BitVec 8) : Nat :=
  if i.toNat < 255 then rom t (i + 1#8) else 0

/-- `curveValue(p)` (R132): index `p[15:8]`, fraction `p[7:0]`. On a table that rises, which R130 does not
accept, `prev - next` is taken as 0 (assumption log 8). -/
def curveValue (t : CurveTable) (p : Phase) : Nat :=
  let index : BitVec 8 := p.extractLsb' 8 8
  let frac : BitVec 8 := p.extractLsb' 0 8
  let prev := rom t index
  let next := segmentEnd t index
  next + ((prev - next) * (255 - frac.toNat)) / 256

/-- `granule(q)` (R137): `max(1, ROM(q div 4) div 256)`, in 1..255. -/
def granule (t : CurveTable) (q : Level) : Granule :=
  BitVec.ofNat 8 (max 1 (rom t (BitVec.ofNat 8 (q.toNat / 4)) / 256))

end Sys2Proof.Machine
end

