-- ==== Sys2Proof/Machine/Flags.lean ====
section
/-! DEFINITION. The flag set (R32) and its four operations, each a single-bit atomic set or clear that leaves the
other flag alone (R69). -/

namespace Sys2Proof.Machine

/-- `UPD <- 1`, the producer's (R69, R100). -/
def State.setUpd (s : State) : State := { s with upd := true }

/-- `UPD <- 0`, the consumer's (R69, R112). -/
def State.clearUpd (s : State) : State := { s with upd := false }

/-- `SMP <- 1`, the producer's (R69, R101). -/
def State.setSmp (s : State) : State := { s with smp := true }

/-- `SMP <- 0`, the consumer's (R69, R192). -/
def State.clearSmp (s : State) : State := { s with smp := false }

/-- The flag set as one word, `FLAGS = {SMP, UPD}`: bit 0 is `UPD`, bit 1 is `SMP` (R32). -/
def State.flags (s : State) : BitVec 2 := BitVec.ofBool s.smp ++ BitVec.ofBool s.upd

end Sys2Proof.Machine
end

