-- ==== Sys2Proof/Machine/Ops.lean ====
section
/-! DEFINITION. The named operations over the block's registers and its HAL calls, and fetching the next event word.
The block has no addressed memory (R60), so no byte operation stands here. It raises no exception (R210): no
operation takes one or returns from one. Its one interrupt, the tick, saves nothing (R214) and is the action
TICK of Machine/Loop.lean, built from the operations below. -/

namespace Sys2Proof.Machine

/-- The numeric code of `ST` (R22). -/
def Stage.code : Stage → BitVec 2
  | .idle => 0#2
  | .attacking => 1#2
  | .decayRelease => 2#2

/-- The state of a code of `ST`; none for 3, "not a state" (R22). -/
def Stage.ofCode (c : BitVec 2) : Option Stage :=
  if c = 0#2 then some .idle
  else if c = 1#2 then some .attacking
  else if c = 2#2 then some .decayRelease
  else none

/-- The numeric code of `LPC` (R36). -/
def LoopPos.code : LoopPos → BitVec 2
  | .top => 0#2
  | .clru => 1#2
  | .schk => 2#2

/-- The position of a code of `LPC`; none for 3, "not a position" (R36). -/
def LoopPos.ofCode (c : BitVec 2) : Option LoopPos :=
  if c = 0#2 then some .top
  else if c = 1#2 then some .clru
  else if c = 2#2 then some .schk
  else none

/-- `LPC <- l` (R17, R36). -/
def State.setLpc (l : LoopPos) (s : State) : State := { s with lpc := l }

/-- `DutyWrite(x)` (R40): `DUTY <- x` and one event. -/
def State.dutyWrite (x : Level) (s : State) : State :=
  { s with duty := some x, events := s.events ++ [.duty x] }

/-- `AdcStart(ch)` (R41): select multiplexer channel `ch` and start a conversion, one event. -/
def State.adcStart (c : Channel) (s : State) : State :=
  { s with events := s.events ++ [.start c] }

/-- `PAR[c]` (R29). -/
def State.parAt (c : Channel) (s : State) : Level := s.par[c.toNat]'(c.isLt)

/-- `PAR[c] <- v` (R192). -/
def State.setPar (c : Channel) (v : Level) (s : State) : State :=
  { s with par := s.par.set c.toNat v c.isLt }

/-- `CH <- (CH + 1) mod 4` (R30, R192). -/
def State.advanceCh (s : State) : State := { s with ch := s.ch + 1#2 }

/-- `STARTED <- b` (R31). -/
def State.setStarted (b : Bool) (s : State) : State := { s with started := b }

/-- `OUT <- v`, brought into 10 bits; the rules only write values that fit (R16, R27). Assumption log 8. -/
def State.setOut (v : Nat) (s : State) : State := { s with out := BitVec.ofNat 10 v }

/-- The next event word of the schedule and the state without it; none when no word is left (R80). -/
def State.fetch (s : State) : Option (EventWord × State) :=
  match s.sched with
  | [] => none
  | w :: rest => some (w, { s with sched := rest })

/-- The state with the word `w` placed before the rest of the schedule. -/
def State.pushWord (w : EventWord) (s : State) : State := { s with sched := w :: s.sched }

end Sys2Proof.Machine
end

