-- ==== Sys2Proof/Machine/Operands.lean ====
section
/-! DEFINITION. The operands of the actions: the environment's values in an event word (R82), the control parameters
by their names (R29), and the constants fixed by the source (R14). -/

namespace Sys2Proof.Machine

/-- The gate is asserted when the pin reads low, `g = 0` (R44, R82). -/
def gateAsserted (g : Bit) : Bool := decide (g = 0#1)

/-- The converter answered ready, `r = 1` (R42, R82). -/
def conversionReady (r : Bit) : Bool := decide (r = 1#1)

/-- `PAR[0]`, the attack parameter (R29). -/
def State.attackParam (s : State) : Level := s.parAt 0#2

/-- `PAR[1]`, the decay parameter (R29). -/
def State.decayParam (s : State) : Level := s.parAt 1#2

/-- `PAR[2]`, the sustain parameter (R29). -/
def State.sustainParam (s : State) : Level := s.parAt 2#2

/-- `PAR[3]`, the release parameter (R29). -/
def State.releaseParam (s : State) : Level := s.parAt 3#2

/-- The attack's overshoot target 1200 (R14, R153). -/
def overshoot : Nat := 1200

/-- Full scale and the attack threshold 1023 (R14, R159). -/
def fullScale : Nat := 1023

/-- The debounce hold 100 (R14, R153). -/
def debounceHold : Debounce := 100#7

end Sys2Proof.Machine
end

