-- ==== Sys2Proof/Machine/Loop.lean ====
section
/-! DEFINITION. The tick dispatcher and the consumer loop (spec/40_dispatch_loop.md): when each consumer action is
enabled (R110), and the meanings of TICK, CLRU and LOOP. -/

namespace Sys2Proof.Machine

/-- `ENV` is enabled at `TOP` with `UPD = 1` (R111). -/
def State.envEnabled (s : State) : Bool := decide (s.lpc = .top) && s.upd

/-- `CLRU` is enabled at `CLRU` (R112). -/
def State.clruEnabled (s : State) : Bool := decide (s.lpc = .clru)

/-- The place in the loop where the sample-due flag is looked at: `SCHK`, or `TOP` with no update due (R110). -/
def State.atSampleCheck (s : State) : Bool :=
  decide (s.lpc = .schk) || (decide (s.lpc = .top) && !s.upd)

/-- `SAMP` is enabled at the sample check with `SMP = 1` (R114). -/
def State.sampEnabled (s : State) : Bool := s.atSampleCheck && s.smp

/-- `LOOP` is enabled at the sample check with `SMP = 0` (R113). -/
def State.loopEnabled (s : State) : Bool := s.atSampleCheck && !s.smp

/-- The state with the loop position and the flags that choose the action `i` (the row of R110's table), where they do
not choose it yet. No action does this: it stands for what a schedule before `i` would have brought about, and is used
by `State.withFetchWord` alone. The rows are written so that R49 still holds. Assumption log 7. -/
def State.chooseAction (i : Instr) (s : State) : State :=
  match i with
  | .tick => s
  | .env _ => if s.envEnabled then s else { s with lpc := .top, upd := true }
  | .clru => if s.clruEnabled then s else { s with lpc := .clru, upd := true }
  | .samp _ _ => if s.sampEnabled then s else { s with lpc := .schk, smp := true }
  | .loop => if s.loopEnabled then s else { s with lpc := .schk, smp := false, started := false }

/-- A consumer action: its effect where it is enabled, and no step elsewhere (R115). -/
def whenEnabled (enabled : Bool) (t : State) : Host.Outcome State Fault Refusal :=
  if enabled then .next t else .fault .notEnabled

/-- The countdown of a tick (R101): `CD <- CD - 1`, and at 0 set `SMP` and reload `SAMPLE_INTERVAL`. -/
def State.countdown (s : State) : State :=
  if s.cd - 1 = 0 then { s.setSmp with cd := s.params.sampleInterval }
  else { s with cd := s.cd - 1 }

/-- `TICK` (R100), enabled in every state (R102): the duty write, then update-due, then the countdown. -/
def execTick (s : State) : Host.Outcome State Fault Refusal :=
  .next (s.dutyWrite s.out).setUpd.countdown

/-- `CLRU` (R112). -/
def execClru (s : State) : Host.Outcome State Fault Refusal :=
  whenEnabled s.clruEnabled (s.clearUpd.setLpc .schk)

/-- `LOOP` (R113). -/
def execLoop (s : State) : Host.Outcome State Fault Refusal :=
  whenEnabled s.loopEnabled (s.setLpc .top)

end Sys2Proof.Machine
end

