-- ==== Sys2Proof/Machine/Envelope.lean ====
section
/-! DEFINITION. The envelope step (spec/42_envelope.md R150) and the meaning of ENV (R111): gate debounce and edge
detection, then one evaluation of the ramp of the state edge detection left (R157). -/

namespace Sys2Proof.Machine

/-- The debounce hold (R151): one step down, no edge. -/
def State.holdDebounce (s : State) : State := { s with db := s.db - 1#7 }

/-- The assertion edge (R153). -/
def State.assertionEdge (s : State) : State :=
  { s with
    db := debounceHold
    tgt := BitVec.ofNat 11 overshoot
    dsc := BitVec.ofNat 11 overshoot
    ph := 0#16
    gr := granule s.params.curveTable s.attackParam
    st := .attacking }

/-- A release with `OUT = 0` (R156). -/
def State.releaseToIdle (s : State) : State :=
  { s with ph := 0#16, st := .idle, db := 0#7 }

/-- A release with `OUT` not 0 (R155): the release ramp falls from the output captured here. -/
def State.releaseToRamp (s : State) : State :=
  { s with
    dsc := s.out.setWidth 11
    ph := 0#16
    gr := granule s.params.curveTable s.releaseParam
    tgt := 0#11
    st := .decayRelease
    db := 0#7 }

/-- The release edge (R154). -/
def State.releaseEdge (s : State) : State :=
  if s.out = 0#10 then s.releaseToIdle else s.releaseToRamp

/-- Phase 1 of the step (R151 to R156). -/
def State.edgeDetect (g : Bit) (s : State) : State :=
  if 1 < s.db.toNat then s.holdDebounce
  else if s.db = 0#7 ∧ gateAsserted g = true then s.assertionEdge
  else if s.db = 1#7 ∧ gateAsserted g = false then s.releaseEdge
  else s

/-- The attack's value `((65535 - c) * DSC) div 65536` before the clamp (R158). -/
def State.attackValue (s : State) : Nat :=
  ((65535 - curveValue s.params.curveTable s.ph) * s.dsc.toNat) / 65536

/-- The threshold step's change to the decay-to-sustain ramp (R160). -/
def State.enterDecay (s : State) : State :=
  { s with
    tgt := s.sustainParam.setWidth 11
    dsc := BitVec.ofNat 11 (fullScale - s.sustainParam.toNat)
    ph := 0#16
    gr := granule s.params.curveTable s.decayParam
    st := .decayRelease }

/-- `PH <- (PH + GR) mod 65536` (R161). -/
def State.advancePhase (s : State) : State := { s with ph := s.ph + s.gr.setWidth 16 }

/-- `Attacking` evaluation (R158 to R161); `OUT` is written once, clamped, and last (R252). -/
def State.evalAttack (s : State) : State :=
  if fullScale ≤ s.attackValue then s.enterDecay.setOut fullScale
  else s.advancePhase.setOut s.attackValue

/-- The ramp's value `(c * DSC) div 65536 + TGT` (R162). -/
def State.rampValue (s : State) : Nat :=
  (curveValue s.params.curveTable s.ph * s.dsc.toNat) / 65536 + s.tgt.toNat

/-- The end of a `DecayRelease` ramp (R163): back to `Idle` with the phase at 0. -/
def State.endRamp (s : State) : State := { s with ph := 0#16, st := .idle }

/-- `DecayRelease` evaluation (R162, R163). -/
def State.evalRamp (s : State) : State :=
  if 65535 - s.ph.toNat ≤ s.gr.toNat then s.endRamp.setOut s.rampValue
  else s.advancePhase.setOut s.rampValue

/-- Phase 2 of the step (R157): evaluate the envelope state once. -/
def State.evalStage (s : State) : State :=
  match s.st with
  | .attacking => s.evalAttack
  | .decayRelease => s.evalRamp
  | .idle => s

/-- `envStep(g)` (R150). -/
def State.envStep (g : Bit) (s : State) : State := (s.edgeDetect g).evalStage

/-- `ENV g` (R111). -/
def execEnv (g : Bit) (s : State) : Host.Outcome State Fault Refusal :=
  whenEnabled s.envEnabled ((s.envStep g).setLpc .clru)

end Sys2Proof.Machine
end

