-- ==== Sys2Proof/Machine/Sampler.lean ====
section
/-! DEFINITION. The analog sampler step and the meaning of SAMP (spec/43_sampler.md R190). -/

namespace Sys2Proof.Machine

/-- The start branch (R191): start a conversion of channel `CH`. -/
def State.startConversion (s : State) : State := (s.adcStart s.ch).setStarted true

/-- A ready poll (R192): store `v` into `PAR[CH]`, go on to the next channel, clear `STARTED` and `SMP`. -/
def State.collect (v : Level) (s : State) : State :=
  ((s.setPar s.ch v).advanceCh.setStarted false).clearSmp

/-- The sampler step (R190), one branch of three. -/
def State.sampleStep (r : Bit) (v : Level) (s : State) : State :=
  if s.started = false then s.startConversion
  else if conversionReady r = false then s
  else s.collect v

/-- `SAMP r, v` (R114, R190). -/
def execSamp (r : Bit) (v : Level) (s : State) : Host.Outcome State Fault Refusal :=
  whenEnabled s.sampEnabled ((s.sampleStep r v).setLpc .top)

end Sys2Proof.Machine
end

