-- ==== Sys2Proof/Machine/Dispatch.lean ====
section
/-! DEFINITION. One arm per operation of the opcode table. -/

namespace Sys2Proof.Machine

def exec (i : Instr) (s : State) : Host.Outcome State Fault Refusal :=
  match i with
  | .tick => Sys2Proof.Machine.execTick s
  | .env g => Sys2Proof.Machine.execEnv g s
  | .clru => Sys2Proof.Machine.execClru s
  | .samp r v => Sys2Proof.Machine.execSamp r v s
  | .loop => Sys2Proof.Machine.execLoop s

end Sys2Proof.Machine
end

