-- ==== Sys2Proof/Machine/Step.lean ====
section
/-! DEFINITION. One step of the machine: take the next event word of the schedule, decode it, run it (R80, R87). -/

namespace Sys2Proof.Machine

/-- One atomic action of a run. A reserved word is refused (R86); with no word left the run so far ends (R261). -/
def step (s : State) : Host.Outcome State Fault Refusal :=
  match s.fetch with
  | none => .fault .scheduleEmpty
  | some (w, t) =>
    match decode w with
    | .ok i => exec i t
    | .error _ => .refused .reservedWord

/-- `s` with the table word `w` of `nbits` bits as the next event word, and the loop position and flags that choose its
action (R110), so that the next step runs it. Assumption log 7. -/
def State.withFetchWord (s : State) (nbits w : Nat) : State :=
  match decodeTableWord nbits w with
  | some i => (s.chooseAction i).pushWord (BitVec.ofNat 16 (w % 2 ^ nbits))
  | none => s.pushWord (BitVec.ofNat 16 (w % 2 ^ nbits))

end Sys2Proof.Machine
end

