-- ==== Sys2Proof/Machine/Items.lean ====
section
/-! DEFINITION. Where a source item of the assembler syntax is enabled (R89, R90): an operation where its word is, a
pseudo-instruction where R90 says so. -/

namespace Sys2Proof.Machine

/-- A tick in this state does not leave the sample-due flag set (R101). -/
def State.tickRaisesNoSample (s : State) : Bool := !s.countdown.smp

/-- `CYCLE g` "is enabled only from `LPC = TOP` with `UPD = 0`, `SMP = 0`, and only while the tick does not raise `SMP`"
(R90). -/
def State.cycleEnabled (s : State) : Bool :=
  decide (s.lpc = .top) && !s.upd && !s.smp && s.tickRaisesNoSample

/-- The items of R89 and R90 in the states that may use them. `START` is "used when `STARTED = 0`", `POLL` and `DONE v`
"used when `STARTED = 1`" (R90); `SERVICE g` begins with `ENV g` and its `CLRU` follows. -/
def State.itemEnabled (a : AsmItem) (s : State) : Bool :=
  match a with
  | .tick => true
  | .env _ => s.envEnabled
  | .clru => s.clruEnabled
  | .samp _ _ => s.sampEnabled
  | .loop => s.loopEnabled
  | .gateOn => s.envEnabled
  | .gateOff => s.envEnabled
  | .start => s.sampEnabled && !s.started
  | .poll => s.sampEnabled && s.started
  | .done _ => s.sampEnabled && s.started
  | .service _ => s.envEnabled
  | .cycle _ => s.cycleEnabled

end Sys2Proof.Machine
end

