-- ==== Sys2Proof/Safety.lean ====
section
/-! DEFINITION. The terms claims about the block are stated in: the invariant of R49, the states a run can reach, finite
runs given as lists of actions, the infinite runs of R261 and their fairness (R231), and the observed events. -/

namespace Sys2Proof.Machine

/-- The invariants of R49, and the constraints on the parameters (R9, R10, R130) they rest on. A start state that
violates them "may also be refused" (R211); the model runs it (assumption log 8), so a claim that needs them has
this as a premise. -/
structure State.Inv (s : State) : Prop where
  /-- R9, R10, R130. -/
  params_legal : s.params.legal
  /-- R49 item 1. -/
  out_le : s.out.toNat ≤ 1023
  /-- R49 item 2. -/
  gr_pos : 1 ≤ s.gr.toNat
  /-- R49 item 2. -/
  db_le : s.db.toNat ≤ 100
  /-- R49 item 2. -/
  cd_pos : 1 ≤ s.cd
  /-- R49 item 2. -/
  cd_le : s.cd ≤ s.params.sampleInterval
  /-- R49 item 3. -/
  attack : s.st = .attacking → s.dsc.toNat = 1200 ∧ s.tgt.toNat = 1200 ∧ 1 ≤ s.db.toNat
  /-- R49 item 4. -/
  decay : s.st = .decayRelease → 1 ≤ s.db.toNat → s.tgt.toNat + s.dsc.toNat = 1023
  /-- R49 item 5. -/
  release : s.st = .decayRelease → s.db = 0#7 →
    s.tgt.toNat = 0 ∧ 1 ≤ s.dsc.toNat ∧ s.dsc.toNat ≤ 1023
  /-- R49 item 6. -/
  started_smp : s.started = true → s.smp = true
  /-- R49 item 7. -/
  clru_upd : s.lpc = .clru → s.upd = true

/-- The states of the runs that start at the reset state under parameters `p` (R49, R67, R240). -/
inductive Reachable (p : Params) : State → Prop where
  | reset : Reachable p (State.resetWith p)
  | action {s t : State} (i : Instr) : Reachable p s → exec i s = .next t → Reachable p t

/-- A finite run given as its actions in order (R67), stopping at the first action without a step. -/
def runActions : List Instr → State → Host.Outcome State Fault Refusal
  | [], s => .next s
  | i :: rest, s =>
    match exec i s with
    | .next t => runActions rest t
    | .fault r => .fault r
    | .refused r => .refused r

/-- A source item run as a whole (R89, R90): its actions in order where it is enabled, and no step elsewhere. An item whose
operands are out of range does not assemble (`AsmItem.wellFormed`), so a claim about one has that as a premise. -/
def runItem (a : AsmItem) (s : State) : Host.Outcome State Fault Refusal :=
  if s.itemEnabled a then runActions a.expand s else .fault .notEnabled

/-- An infinite run from the state `s` (R261: "A model's runs are infinite; a finite schedule is a prefix"): its actions
and its states, one after the other, with no last one. The block's own runs start at a reset state, `State.resetWith p`
(R243). The schedule that State holds is a finite part of such a run (assumption log 7), and runs out where that part
ends. -/
structure InfiniteRun (s : State) (act : Nat → Instr) (st : Nat → State) : Prop where
  /-- Where the run starts. -/
  start : st 0 = s
  /-- Each action takes a step (R115): there is no final state (R261). -/
  next : ∀ n, exec (act n) (st n) = .next (st (n + 1))

/-- The consumer has an enabled action (R110, R115). -/
def State.consumerEnabled (s : State) : Prop := ∃ i : Instr, i ≠ .tick ∧ ∃ t, exec i s = .next t

/-- Weak fairness of both agents (R231), the premise of a claim that something eventually happens. Nothing is assumed of
the fields `g`, `r` and `v`. Assumption log 17. -/
structure Fair (act : Nat → Instr) (st : Nat → State) : Prop where
  /-- "the producer takes infinitely many ticks" (R231). -/
  producer : ∀ n, ∃ m, n ≤ m ∧ act m = .tick
  /-- "the consumer, whenever it has an enabled action, eventually takes one" (R231). -/
  consumer : ∀ n, (st n).consumerEnabled → ∃ m, n ≤ m ∧ act m ≠ .tick

/-- The event words of the `k` actions from the `n`-th on, a finite part of an infinite run as a schedule (R80, R261). -/
def wordsFrom (act : Nat → Instr) (n k : Nat) : List EventWord :=
  (List.range' n k).map fun m => encode (act m)

/-- The envelope steps of the gate levels `gs` in order (R150). -/
def envSteps (gs : List Bit) (s : State) : State := gs.foldl (fun t g => t.envStep g) s

/-- Phase 1 of an envelope step detects no edge: the hold (R151) or a steady gate (R152). -/
abbrev State.noEdge (g : Bit) (s : State) : Prop :=
  1 < s.db.toNat ∨ (s.db = 1#7 ∧ g = 0#1) ∨ (s.db = 0#7 ∧ g = 1#1)

/-- The debounce counter after a step that detects no edge (R151, R152). -/
def State.heldDb (s : State) : Debounce := if 1 < s.db.toNat then s.db - 1#7 else s.db

/-- Is the event a duty write (R230)? -/
def HalEvent.isDuty : HalEvent → Bool
  | .duty _ => true
  | .start _ => false

/-- Is the action an envelope step? -/
def isEnv : Instr → Bool
  | .env _ => true
  | _ => false

/-- Is the action a sampler step that answers ready? -/
def isReadySamp : Instr → Bool
  | .samp r _ => decide (r = 1#1)
  | _ => false

end Sys2Proof.Machine
end

