-- ==== Sys2Proof/Certificates/Slice0/Obligations.lean ====
section
/-! DEFINITION. The statements of this row, one per `def Obligations.<Name>`. Each docstring names the rules of spec/
the statement formalises; where a rule is marked in the spec as its own decision or derivation, or where the model
chose, the docstring says so. -/

open Sys2Proof Sys2Proof.Machine

-- ## Encoding (30_encoding.md)

/-- Encoding and decoding agree: the word of an instruction decodes to it, at every value of its operands. The
encoding is the spec's own decision D1 (R81 to R87). -/
def Obligations.DecodeOfEncode : Prop :=
  ∀ i : Instr, decode (encode i) = .ok i

/-- Each word has one meaning: a word that decodes is the word of the instruction it decodes to. D1. -/
def Obligations.EncodeOfDecode : Prop :=
  ∀ (w : EventWord) (i : Instr), decode w = .ok i → encode i = w

/-- The decoder and the rows of opcode_table.json agree: a word is decoded exactly when it matches a row, and then
to an instruction of the row it matches. D1 (R83 to R85). -/
def Obligations.DecodeAgreesWithOpcodeRows : Prop :=
  (∀ w : EventWord,
    decode w = .error .reservedWord ↔ ∀ row ∈ opRows, w &&& row.mask ≠ row.pattern) ∧
  (∀ (w : EventWord) (i : Instr), decode w = .ok i →
    rowOf i ∈ opRows ∧ w &&& (rowOf i).mask = (rowOf i).pattern)

/-- A step refuses exactly the reserved words: an op of 000, 110 or 111, or a must-be-zero bit that is 1 (R86, the
spec's own decision D1). The fields are taken by division, not by the decoder's own bit fields. -/
def Obligations.StepRefusesExactlyReservedWords : Prop :=
  ∀ (s : State) (w : EventWord) (rest : List EventWord), s.sched = w :: rest →
    (step s = .refused .reservedWord ↔
      w.toNat / 8192 = 0 ∨ 6 ≤ w.toNat / 8192 ∨
      ((w.toNat / 8192 = 1 ∨ w.toNat / 8192 = 3 ∨ w.toNat / 8192 = 5) ∧ w.toNat % 8192 ≠ 0) ∨
      (w.toNat / 8192 = 2 ∧ w.toNat % 8192 / 2 ≠ 0) ∨
      (w.toNat / 8192 = 4 ∧ w.toNat % 8192 / 2048 ≠ 0))

/-- Words written out from the encodings of R81 and the vectors of 95_test_vectors.md 2.4. D1. -/
def Obligations.WordsDecodeAsTabulated : Prop :=
  decode 0b0010000000000000#16 = .ok .tick ∧
  decode 0b0100000000000000#16 = .ok (.env 0#1) ∧
  decode 0b0100000000000001#16 = .ok (.env 1#1) ∧
  decode 0b0110000000000000#16 = .ok .clru ∧
  decode 0b1000000000000000#16 = .ok (.samp 0#1 0#10) ∧
  decode 0b1000001111111111#16 = .ok (.samp 0#1 1023#10) ∧
  decode 0b1000011010111100#16 = .ok (.samp 1#1 700#10) ∧
  decode 0b1010000000000000#16 = .ok .loop ∧
  decode 0x0000#16 = .error .reservedWord ∧ decode 0x2001#16 = .error .reservedWord ∧
  decode 0x4002#16 = .error .reservedWord ∧ decode 0x7FFF#16 = .error .reservedWord ∧
  decode 0x8800#16 = .error .reservedWord ∧ decode 0xA100#16 = .error .reservedWord ∧
  decode 0xC000#16 = .error .reservedWord ∧ decode 0xFFFF#16 = .error .reservedWord

/-- The assembler (R89, R90; the spec's own decision D1): the operand ranges, and each pseudo-instruction's words. -/
def Obligations.PseudoInstructionsAssemble : Prop :=
  (AsmItem.gateOn.assemble = some [0x4000#16]) ∧ (AsmItem.gateOff.assemble = some [0x4001#16]) ∧
  (AsmItem.start.assemble = some [0x8000#16]) ∧ (AsmItem.poll.assemble = some [0x8000#16]) ∧
  (∀ v, v < 1024 → (AsmItem.done v).assemble = some [BitVec.ofNat 16 (0x8400 + v)]) ∧
  (∀ g, g < 2 → (AsmItem.service g).assemble = some [BitVec.ofNat 16 (0x4000 + g), 0x6000#16] ∧
    (AsmItem.cycle g).assemble =
      some [0x2000#16, BitVec.ofNat 16 (0x4000 + g), 0x6000#16, 0xA000#16] ∧
    (AsmItem.env g).assemble = some [BitVec.ofNat 16 (0x4000 + g)]) ∧
  (∀ r v, r < 2 → v < 1024 →
    (AsmItem.samp r v).assemble = some [BitVec.ofNat 16 (0x8000 + 1024 * r + v)]) ∧
  (∀ g, 2 ≤ g → (AsmItem.env g).assemble = none ∧ (AsmItem.service g).assemble = none ∧
    (AsmItem.cycle g).assemble = none) ∧
  (∀ r v, 2 ≤ r ∨ 1024 ≤ v → (AsmItem.samp r v).assemble = none) ∧
  (∀ v, 1024 ≤ v → (AsmItem.done v).assemble = none)

/-- The numeric codes of `ST`, `LPC` and the packed flag set (R22, R32, R36; the spec's own decisions D3, D8, D10):
code 3 is no state and no position, and bit 0 of the flags is `UPD`, bit 1 `SMP`. -/
def Obligations.CodesOfStateAndFlags : Prop :=
  (∀ x : Stage, Stage.ofCode x.code = some x) ∧ (∀ l : LoopPos, LoopPos.ofCode l.code = some l) ∧
  (∀ c, Stage.ofCode c = none ↔ c = 3#2) ∧ (∀ c, LoopPos.ofCode c = none ↔ c = 3#2) ∧
  Stage.idle.code = 0#2 ∧ Stage.attacking.code = 1#2 ∧ Stage.decayRelease.code = 2#2 ∧
  LoopPos.top.code = 0#2 ∧ LoopPos.clru.code = 1#2 ∧ LoopPos.schk.code = 2#2 ∧
  (∀ s : State, s.flags.getLsbD 0 = s.upd ∧ s.flags.getLsbD 1 = s.smp)

-- ## Steps and runs

/-- A step runs the decoded word: when the next word of the schedule decodes to `i`, the step is `exec i` at the
state with that word taken from the schedule (R80, R87; D1). The schedule is the model's own field (log entry 7). -/
def Obligations.StepRunsDecodedWord : Prop :=
  ∀ (s : State) (w : EventWord) (rest : List EventWord) (i : Instr),
    s.sched = w :: rest → decode w = .ok i → step s = exec i { s with sched := rest }

/-- The only ways a step stops. Two are the outcomes R211 names (the spec's own decision D23): the word is reserved
(R86), or it is a consumer word that is not enabled (R115). The third, `scheduleEmpty`, no word being left, is the
model's own (DESIGN CHOICE, log entry 7), not the spec's: it ends the finite schedule the model was given. -/
def Obligations.StepStopsOnlyByName : Prop :=
  ∀ s : State, (∃ t, step s = .next t) ∨
    (s.sched = [] ∧ step s = .fault .scheduleEmpty) ∨
    (∃ w rest, s.sched = w :: rest ∧ decode w = .error .reservedWord ∧
      step s = .refused .reservedWord) ∨
    (∃ w rest i, s.sched = w :: rest ∧ decode w = .ok i ∧ i ≠ .tick ∧ step s = .fault .notEnabled)

/-- A run is a sequence of event words (R80; D1): the machine's steps over the words of a list of actions are those
actions in order, and they stop where and how the actions stop. That the words stand in State as a schedule is the
model's choice (log entry 7). -/
def Obligations.ScheduleRunIsActionRun : Prop :=
  ∀ (acts : List Instr) (rest : List EventWord) (s : State),
    Sys2Proof.core.run acts.length { s with sched := acts.map encode ++ rest } =
      runActions acts { s with sched := rest }

/-- One fully serviced tick, the pseudo-instruction `CYCLE g` (R90, R117; D1 and a derivation of the spec): from the
top of the loop with no flag set and a tick that does not end the countdown, its four words run to the top of the
loop again, with one duty write, one envelope step, the flags clear and the countdown one lower.The premises
are R90's; of the same words from `UPD = 1`, where R90 does not enable the item, this says nothing (log entry 20). -/
def Obligations.CycleServicesOneTick : Prop :=
  ∀ (s : State) (g : Bit) (rest : List EventWord),
    s.lpc = .top → s.upd = false → s.smp = false → 2 ≤ s.cd →
    s.sched = 0x2000#16 :: (0x4000#16 ||| g.setWidth 16) :: 0x6000#16 :: 0xA000#16 :: rest →
    Sys2Proof.core.run 4 s = .next
      { s.envStep g with
        duty := some s.out
        events := s.events ++ [.duty s.out]
        cd := s.cd - 1
        sched := rest }

/-- Where `CYCLE g` is enabled, and what it does (R90's last sentence; D1): from `LPC = TOP` with `UPD = 0` and `SMP = 0`
while the tick does not raise `SMP`, and there the item services one tick; in every other state, `UPD = 1` among them,
the item has no step. That the sentence is read of the item, and not of its four words one by one, which R110 governs, is
the model's choice (DESIGN CHOICE, log entry 20). -/
def Obligations.CycleEnabledOnlyWhereStated : Prop :=
  ∀ (g : Nat) (s : State), (AsmItem.cycle g).wellFormed = true →
    (s.itemEnabled (.cycle g) = true ↔
      s.lpc = .top ∧ s.upd = false ∧ s.smp = false ∧ ∃ t, exec .tick s = .next t ∧ t.smp = false) ∧
    (s.itemEnabled (.cycle g) = true →
      runItem (.cycle g) s = .next
        { s.envStep (BitVec.ofNat 1 g) with
          duty := some s.out
          events := s.events ++ [.duty s.out]
          cd := s.cd - 1 }) ∧
    (s.itemEnabled (.cycle g) = false → runItem (.cycle g) s = .fault .notEnabled)

/-- An enabled source item runs to its end, and the machine runs its words (R89, R90; D1): no word of an item stops where
the item is enabled, `CYCLE g` and `SERVICE g` included. The schedule is the model's own field (log entry 7). -/
def Obligations.EnabledItemsRunToTheirEnd : Prop :=
  ∀ (a : AsmItem) (s : State) (rest : List EventWord), a.wellFormed = true → s.itemEnabled a = true →
    ∃ (words : List EventWord) (t : State), a.assemble = some words ∧ runItem a s = .next t ∧
      Sys2Proof.core.run words.length { s with sched := words ++ rest } = .next { t with sched := rest }

/-- `START`, `POLL` and `DONE v` take the branch they are named for, where R90 uses them (R90, R191, R192; D1): a start of
channel `CH`, a wait that changes `LPC` alone, a collection of `v`. -/
def Obligations.SamplerItemsTakeTheirBranch : Prop :=
  ∀ s : State,
    (s.itemEnabled .start = true → runItem .start s = .next
      { s with events := s.events ++ [.start s.ch], started := true, lpc := .top }) ∧
    (s.itemEnabled .poll = true → runItem .poll s = .next { s with lpc := .top }) ∧
    (∀ v, (AsmItem.done v).wellFormed = true → s.itemEnabled (.done v) = true →
      runItem (.done v) s = .next
        { s with
          par := s.par.set s.ch.toNat (BitVec.ofNat 10 v) s.ch.isLt
          ch := s.ch + 1#2
          started := false
          smp := false
          lpc := .top })

-- ## Infinite runs (70_reset_and_hazards.md R261, 60_exceptions.md R231)

/-- There is no final state (R261; the spec's own decision D24): the reachable states are exactly the states of the
infinite runs, and of the fair ones among them (R231, D30), so every finite run goes on for ever, fairly. -/
def Obligations.ReachableIffOnFairInfiniteRun : Prop :=
  ∀ (p : Params) (s : State),
    (Reachable p s ↔ ∃ act st, InfiniteRun (State.resetWith p) act st ∧ ∃ n, st n = s) ∧
    (Reachable p s ↔ ∃ act st, InfiniteRun (State.resetWith p) act st ∧ Fair act st ∧ ∃ n, st n = s)

/-- A finite schedule is a prefix of an infinite run (R261; D24): the machine's steps over the words of any finite
stretch of an infinite run lead through the states of the run. The schedule is the model's own field (log entry 7). -/
def Obligations.MachineRunsStretchesOfInfiniteRuns : Prop :=
  ∀ (s : State) (act : Nat → Instr) (st : Nat → State), InfiniteRun s act st →
    ∀ (n k : Nat) (rest : List EventWord),
      Sys2Proof.core.run k { st n with sched := wordsFrom act n k ++ rest } =
        .next { st (n + k) with sched := rest }

/-- In a fair infinite run every pending update is cleared by a later `CLRU`, and envelope steps and duty writes never
end, whatever the converter answers (R231, R103; the fairness is the spec's own decision D30). -/
def Obligations.FairRunsServiceUpdates : Prop :=
  ∀ (s : State) (act : Nat → Instr) (st : Nat → State), InfiniteRun s act st → Fair act st →
    (∀ n, (st n).upd = true → ∃ m, n ≤ m ∧ act m = .clru ∧ (st (m + 1)).upd = false) ∧
    (∀ n, ∃ m g, n ≤ m ∧ act m = .env g) ∧
    (∀ k, ∃ n, k ≤ ((st n).events.filter HalEvent.isDuty).length)

/-- In a fair infinite run a release with the gate held released completes (R231's "an envelope completes", R163, R165
item 7; the fairness is the spec's own decision D30). -/
def Obligations.FairRunsCompleteReleases : Prop :=
  ∀ (s : State) (act : Nat → Instr) (st : Nat → State), InfiniteRun s act st → Fair act st →
    s.st = .decayRelease → s.db = 0#7 → 1 ≤ s.gr.toNat → (∀ m, act m ≠ .env 0#1) →
    ∃ m, (st m).st = .idle ∧ (st m).ph = 0#16

-- ## Reset (10_state.md R50, 70_reset_and_hazards.md R240, R241; the spec's own decisions D15, D16, D29)

/-- The reset state (R50, R240): every register at the value the spec gives, `PAR` at `PARAM_INIT`, `DUTY` holding no
value; the parameters at reset are legal ones (R9, R10, R130). The empty event record and schedule are the model's
(log entries 6 and 7). -/
def Obligations.ResetState : Prop :=
  State.reset.params.legal ∧
  ∃ p : Params, State.reset =
    { st := .idle, ph := 0, gr := 1, dsc := 0, tgt := 0, out := 0, db := 0, par := p.paramInit, ch := 0,
      started := false, upd := false, smp := false, cd := p.sampleInterval, lpc := .top, duty := none,
      events := [], sched := [], params := p }

/-- The first action after reset is a tick or the spin (R241; D15, D20): the first tick writes `DUTY = 0` and sets
`UPD`, `LOOP` is the one enabled consumer action. -/
def Obligations.FirstActionsAfterReset : Prop :=
  (∃ t, exec .tick State.reset = .next t ∧ t.duty = some 0#10 ∧ t.upd = true) ∧
  exec .loop State.reset = .next State.reset ∧
  (∀ g, exec (.env g) State.reset = .fault .notEnabled) ∧
  exec .clru State.reset = .fault .notEnabled ∧
  (∀ r v, exec (.samp r v) State.reset = .fault .notEnabled)

/-- The invariants of R49 hold at reset, for every legal value of the parameters, and at the model's reset state. -/
def Obligations.ResetMeetsInvariants : Prop :=
  (∀ p : Params, p.legal → (State.resetWith p).Inv) ∧ State.reset.Inv

/-- Every step keeps the invariants of R49, from every state that meets them, whether or not a run reaches it. -/
def Obligations.StepKeepsInvariants : Prop :=
  ∀ s t : State, s.Inv → step s = .next t → t.Inv

/-- Every state reached from a reset state under legal parameters meets the invariants of R49, and the parameters,
the curve table among them, are the ones it was reset with (R35, R74). -/
def Obligations.ReachableStatesMeetInvariants : Prop :=
  ∀ (p : Params) (s : State), p.legal → Reachable p s → s.Inv ∧ s.params = p

-- ## The producer (40_dispatch_loop.md R100 to R103)

/-- `TICK` (R100 with R101's countdown): from any state whose countdown has not run out it takes a step that writes
`OUT` to `DUTY` with one event, sets `UPD`, counts down, and on reaching 0 sets `SMP` and reloads
`SAMPLE_INTERVAL`. Nothing else changes. -/
def Obligations.TickEffect : Prop :=
  decode 0x2000#16 = .ok .tick ∧
  ∀ s : State, 1 ≤ s.cd →
    exec .tick s = .next
      { s with
        duty := some s.out
        events := s.events ++ [.duty s.out]
        upd := true
        smp := s.smp || decide (s.cd = 1)
        cd := if s.cd = 1 then s.params.sampleInterval else s.cd - 1 }

/-- A tick is enabled in every state, whatever `LPC`, the flags and the countdown hold, and saves and changes nothing
of the consumer's state (R102, R214; D11, D13). -/
def Obligations.TickAlwaysEnabled : Prop :=
  ∀ s : State, ∃ t : State, exec .tick s = .next t ∧
    t = { s with duty := some s.out, events := s.events ++ [.duty s.out], upd := true, smp := t.smp, cd := t.cd } ∧
    (s.smp = true → t.smp = true)

/-- Sample-due is raised by every `SAMPLE_INTERVAL`-th tick and by no other (R101's consequence, derived there): from a
full countdown, after `n` ticks the countdown has gone down by `n mod SAMPLE_INTERVAL`, there are `n` duty events, and
the next tick sets a clear `SMP` exactly when it is the `k * SAMPLE_INTERVAL`-th. -/
def Obligations.SampleDueEveryInterval : Prop :=
  ∀ (n : Nat) (s : State), 1 ≤ s.params.sampleInterval → s.cd = s.params.sampleInterval →
    ∃ t : State, runActions (List.replicate n .tick) s = .next t ∧
      t.cd = s.params.sampleInterval - n % s.params.sampleInterval ∧
      (t.smp = true ↔ s.smp = true ∨ s.params.sampleInterval ≤ n) ∧
      t.events = s.events ++ List.replicate n (.duty s.out) ∧
      ∃ u : State, exec .tick { t with smp := false } = .next u ∧
        (u.smp = true ↔ s.params.sampleInterval ∣ n + 1)

/-- The duty sequence has exactly one entry per tick, whatever the consumer does between (R103 item 5, derived there;
R230): a run only appends events, and appends as many duty events as it has ticks. -/
def Obligations.OneDutyEventPerTick : Prop :=
  ∀ (acts : List Instr) (s t : State), runActions acts s = .next t →
    ∃ new : List HalEvent, t.events = s.events ++ new ∧
      (new.filter HalEvent.isDuty).length = acts.count .tick

-- ## The consumer loop (40_dispatch_loop.md R110 to R117)

/-- `CLRU` (R112): enabled at `LPC = CLRU`, it clears `UPD`, sets `LPC` to `SCHK` and changes nothing else, `SMP`
included; elsewhere it has no step. -/
def Obligations.ClruEffect : Prop :=
  decode 0x6000#16 = .ok .clru ∧
  ∀ s : State,
    (s.lpc = .clru → exec .clru s = .next { s with upd := false, lpc := .schk }) ∧
    (s.lpc ≠ .clru → exec .clru s = .fault .notEnabled)

/-- `LOOP` (R113): enabled at `TOP` with no flag set and at `SCHK` with `SMP = 0`, it sets `LPC` to `TOP` and changes
nothing else; elsewhere it has no step. -/
def Obligations.LoopEffect : Prop :=
  decode 0xA000#16 = .ok .loop ∧
  ∀ s : State,
    ((s.lpc = .top ∧ s.upd = false ∧ s.smp = false) ∨ (s.lpc = .schk ∧ s.smp = false) →
      exec .loop s = .next { s with lpc := .top }) ∧
    (¬((s.lpc = .top ∧ s.upd = false ∧ s.smp = false) ∨ (s.lpc = .schk ∧ s.smp = false)) →
      exec .loop s = .fault .notEnabled)

/-- In every state exactly one consumer operation is enabled, the one of R110's table (R110, R115; the spec's own
decision D8): it takes a step, and every other consumer word has none. -/
def Obligations.ExactlyOneConsumerOperationEnabled : Prop :=
  ∀ s : State,
    (∀ g, (∃ t, exec (.env g) s = .next t) ↔ s.lpc = .top ∧ s.upd = true) ∧
    ((∃ t, exec .clru s = .next t) ↔ s.lpc = .clru) ∧
    (∀ r v, (∃ t, exec (.samp r v) s = .next t) ↔
      s.smp = true ∧ (s.lpc = .schk ∨ (s.lpc = .top ∧ s.upd = false))) ∧
    ((∃ t, exec .loop s = .next t) ↔
      s.smp = false ∧ (s.lpc = .schk ∨ (s.lpc = .top ∧ s.upd = false))) ∧
    (∃ i, i ≠ .tick ∧ ∃ t, exec i s = .next t) ∧
    (∀ i j, i ≠ .tick → j ≠ .tick → (∃ t, exec i s = .next t) → (∃ t, exec j s = .next t) →
      rowOf i = rowOf j) ∧
    (∀ i, i ≠ .tick → (∃ t, exec i s = .next t) ∨ exec i s = .fault .notEnabled)

/-- A sample-due flag set by a tick survives the clear of update-due that follows it (R69, R70, R250; the spec's own
decision D10), while the update of that tick is coalesced away (R103 item 4). -/
def Obligations.SampleDueSurvivesUpdateClear : Prop :=
  ∀ s : State, s.lpc = .clru → s.cd = 1 →
    ∃ t : State, runActions [.tick, .clru] s = .next t ∧ t.smp = true ∧ t.upd = false ∧
      t.cd = s.params.sampleInterval ∧ t.lpc = .schk

/-- Who writes what (the access matrix of R48, at the grain of actions; the rights of R33 and R217; R66): a register
that an action changed, and a flag that it set or cleared, names the action. -/
def Obligations.OnlyTheListedActionWrites : Prop :=
  ∀ (i : Instr) (s t : State), exec i s = .next t →
    (t.st ≠ s.st ∨ t.ph ≠ s.ph ∨ t.gr ≠ s.gr ∨ t.dsc ≠ s.dsc ∨ t.tgt ≠ s.tgt ∨ t.out ≠ s.out ∨
      t.db ≠ s.db → ∃ g, i = .env g) ∧
    (t.par ≠ s.par ∨ t.ch ≠ s.ch → ∃ v, i = .samp 1#1 v ∧ s.started = true) ∧
    (t.started ≠ s.started → ∃ r v, i = .samp r v) ∧
    (t.upd = true → s.upd = true ∨ i = .tick) ∧
    (s.upd = true → t.upd = true ∨ i = .clru) ∧
    (t.smp = true → s.smp = true ∨ i = .tick) ∧
    (s.smp = true → t.smp = true ∨ ∃ v, i = .samp 1#1 v ∧ s.started = true) ∧
    (t.cd ≠ s.cd ∨ t.duty ≠ s.duty → i = .tick) ∧
    (t.lpc ≠ s.lpc → i ≠ .tick) ∧
    (t.events = s.events ∨ (i = .tick ∧ t.events = s.events ++ [.duty s.out]) ∨
      (s.started = false ∧ (∃ r v, i = .samp r v) ∧ t.events = s.events ++ [.start s.ch])) ∧
    t.params = s.params ∧ t.sched = s.sched

-- ## The curve (41_curve.md)

/-- `curveValue` never rises with the phase, for every legal table (R135, derived there). -/
def Obligations.CurveNeverRises : Prop :=
  ∀ (tbl : CurveTable) (p q : Phase), tbl.legal → p.toNat ≤ q.toNat → curveValue tbl q ≤ curveValue tbl p

/-- `curveValue` stays within its segment and meets its end exactly (R132, R133, R134 items 1 and 3, derived there):
at the last phase of a segment it is the next entry, and 0 in the last segment. -/
def Obligations.CurveWithinSegment : Prop :=
  ∀ tbl : CurveTable, tbl.legal →
    (∀ (i f : Nat) (hi : i < 255), f < 256 →
      tbl[i + 1].toNat ≤ curveValue tbl (BitVec.ofNat 16 (256 * i + f)) ∧
      curveValue tbl (BitVec.ofNat 16 (256 * i + f)) ≤ tbl[i].toNat ∧
      curveValue tbl (BitVec.ofNat 16 (256 * i + f)) =
        tbl[i + 1].toNat + ((tbl[i].toNat - tbl[i + 1].toNat) * (255 - f)) / 256) ∧
    (∀ (i : Nat) (hi : i < 255),
      curveValue tbl (BitVec.ofNat 16 (256 * i + 255)) = tbl[i + 1].toNat) ∧
    (∀ f, f < 256 →
      curveValue tbl (BitVec.ofNat 16 (0xFF00 + f)) = (tbl[255].toNat * (255 - f)) / 256) ∧
    curveValue tbl 0xFFFF#16 = 0

/-- The step of `curveValue` across a segment boundary is the next segment's drop divided by 256, rounded up, and each
step inside that segment is that quotient rounded down or up (R136, derived there). -/
def Obligations.CurveBoundaryStep : Prop :=
  ∀ (tbl : CurveTable) (i : Nat) (hi : i < 255), tbl.legal →
    let d := tbl[i + 1].toNat - (if h : i + 2 < 256 then tbl[i + 2].toNat else 0)
    curveValue tbl (BitVec.ofNat 16 (256 * i + 255)) -
        curveValue tbl (BitVec.ofNat 16 (256 * (i + 1))) = (d + 255) / 256 ∧
    ∀ f, f < 255 →
      curveValue tbl (BitVec.ofNat 16 (256 * (i + 1) + f)) -
          curveValue tbl (BitVec.ofNat 16 (256 * (i + 1) + f + 1)) = d / 256 ∨
      curveValue tbl (BitVec.ofNat 16 (256 * (i + 1) + f)) -
          curveValue tbl (BitVec.ofNat 16 (256 * (i + 1) + f + 1)) = (d + 255) / 256

/-- The granule (R137, R138, derived there): 1 to 255, never larger for a larger parameter, the same for four
consecutive parameters, 255 for the first four, and 1 exactly below an entry of 512. -/
def Obligations.GranuleProperties : Prop :=
  ∀ tbl : CurveTable, tbl.legal →
    (∀ (q : Level) (i : Nat) (hi : i < 256), q.toNat / 4 = i →
      (granule tbl q).toNat = max 1 (tbl[i].toNat / 256) ∧
      (granule tbl q = 1#8 ↔ tbl[i].toNat < 512)) ∧
    (∀ q : Level, 1 ≤ (granule tbl q).toNat ∧ (granule tbl q).toNat ≤ 255) ∧
    (∀ q r : Level, q.toNat ≤ r.toNat → (granule tbl r).toNat ≤ (granule tbl q).toNat) ∧
    (∀ q r : Level, q.toNat / 4 = r.toNat / 4 → granule tbl q = granule tbl r) ∧
    (∀ q : Level, q.toNat < 4 → granule tbl q = 255#8)

-- ## The envelope step (42_envelope.md)

/-- `ENV g` completes wherever it is enabled, sets `LPC` to `CLRU`, and writes nothing but the engine's registers
(R111, R150). -/
def Obligations.EnvCompletesWithinEngine : Prop :=
  ∀ (g : Bit) (s : State), s.lpc = .top → s.upd = true →
    ∃ t : State, exec (.env g) s = .next t ∧
      t = { s with
        st := t.st, ph := t.ph, gr := t.gr, dsc := t.dsc, tgt := t.tgt, out := t.out, db := t.db,
        lpc := .clru }

/-- The steady states and the hold in `Idle` (R151, R152, R164): a step that detects no edge in `Idle` changes nothing
but the debounce counter, one lower where it is above 1, and `LPC`. -/
def Obligations.EnvIdleHolds : Prop :=
  ∀ (g : Bit) (s : State), s.lpc = .top → s.upd = true → s.st = .idle →
    (1 < s.db.toNat → exec (.env g) s = .next { s with db := s.db - 1#7, lpc := .clru }) ∧
    ((s.db = 1#7 ∧ g = 0#1) ∨ (s.db = 0#7 ∧ g = 1#1) →
      exec (.env g) s = .next { s with lpc := .clru })

/-- The assertion edge (R153), from any envelope state: the attack's registers are set, and the attack is evaluated in
the same step at phase 0, so that the step ends with `PH = GR` and the attack's first value in `OUT`. -/
def Obligations.EnvAssertionEdge : Prop :=
  ∀ s : State, s.params.legal → s.lpc = .top → s.upd = true → s.db = 0#7 →
    exec (.env 0#1) s = .next
      { s with
        db := 100#7
        tgt := 1200#11
        dsc := 1200#11
        gr := granule s.params.curveTable s.par[0]
        ph := (granule s.params.curveTable s.par[0]).setWidth 16
        st := .attacking
        out := BitVec.ofNat 10 ((65535 - curveValue s.params.curveTable 0#16) * 1200 / 65536)
        lpc := .clru }

/-- A new assertion drops the output to the attack's first value, at most 4, whatever the output was (R165 item 6,
derived there). -/
def Obligations.AssertionDropsOutput : Prop :=
  ∀ s t : State, s.params.legal → s.db = 0#7 → exec (.env 0#1) s = .next t → t.out.toNat ≤ 4

/-- The release edge at zero output (R156), from any envelope state: to `Idle` with no ramp; `GR`, `DSC`, `TGT` and
`OUT` keep their values. -/
def Obligations.EnvReleaseAtZero : Prop :=
  ∀ s : State, s.lpc = .top → s.upd = true → s.db = 1#7 → s.out = 0#10 →
    exec (.env 1#1) s = .next { s with ph := 0#16, st := .idle, db := 0#7, lpc := .clru }

/-- The release edge with nonzero output (R155), from any envelope state: the output is captured as the scale, and the
release ramp is evaluated in the same step at phase 0. -/
def Obligations.EnvReleaseRamp : Prop :=
  ∀ s : State, s.lpc = .top → s.upd = true → s.db = 1#7 → s.out ≠ 0#10 →
    exec (.env 1#1) s = .next
      { s with
        dsc := s.out.setWidth 11
        gr := granule s.params.curveTable s.par[3]
        ph := (granule s.params.curveTable s.par[3]).setWidth 16
        tgt := 0#11
        st := .decayRelease
        db := 0#7
        out := BitVec.ofNat 10 (curveValue s.params.curveTable 0#16 * s.out.toNat / 65536)
        lpc := .clru }

/-- The first value of a release is below the output it starts from, and never a jump up (R165 item 3, derived there). -/
def Obligations.ReleaseStartsBelowOutput : Prop :=
  ∀ s t : State, s.db = 1#7 → s.out ≠ 0#10 → exec (.env 1#1) s = .next t →
    t.out.toNat = curveValue s.params.curveTable 0#16 * s.out.toNat / 65536 ∧ t.out.toNat < s.out.toNat

/-- The attack below its threshold, in a step that detects no edge (R151, R152, R158, R161; D2, D4): `OUT` takes the
attack's value and the phase advances by the granule modulo 65536. -/
def Obligations.EnvAttackAdvances : Prop :=
  ∀ (g : Bit) (s : State), s.lpc = .top → s.upd = true → s.st = .attacking → s.noEdge g →
    (65535 - curveValue s.params.curveTable s.ph) * s.dsc.toNat / 65536 < 1023 →
    exec (.env g) s = .next
      { s with
        db := s.heldDb
        ph := BitVec.ofNat 16 ((s.ph.toNat + s.gr.toNat) % 65536)
        out := BitVec.ofNat 10 ((65535 - curveValue s.params.curveTable s.ph) * s.dsc.toNat / 65536)
        lpc := .clru }

/-- The attack's threshold (R159) and the change to the decay-to-sustain ramp (R160), in a step that detects no edge:
the value is clamped to 1023 before the one write of `OUT`, and the sustain and decay parameters are read now. With
`DSC = 1200` the threshold is `c <= 9665` (derived in R159 from R158). -/
def Obligations.EnvAttackThreshold : Prop :=
  (∀ (g : Bit) (s : State), s.lpc = .top → s.upd = true → s.st = .attacking → s.noEdge g →
    1023 ≤ (65535 - curveValue s.params.curveTable s.ph) * s.dsc.toNat / 65536 →
    exec (.env g) s = .next
      { s with
        db := s.heldDb
        tgt := s.par[2].setWidth 11
        dsc := BitVec.ofNat 11 (1023 - s.par[2].toNat)
        ph := 0#16
        gr := granule s.params.curveTable s.par[1]
        st := .decayRelease
        out := 1023#10
        lpc := .clru }) ∧
  (∀ s : State, s.dsc = 1200#11 →
    (1023 ≤ (65535 - curveValue s.params.curveTable s.ph) * s.dsc.toNat / 65536 ↔
      curveValue s.params.curveTable s.ph ≤ 9665))

/-- The `DecayRelease` ramp in a step that detects no edge (R162, R163; D2): `OUT` takes the ramp's value at the phase
before any advance; with no room left the ramp ends in `Idle` at phase 0, else the phase advances without passing 65535.
In a state that meets R49 the value fits `OUT` (third clause), so `OUT` is the value itself; in a state that violates R49
the value can exceed 1023, and that `OUT` then takes its low 10 bits is the model's choice (DESIGN CHOICE, log entry
8). -/
def Obligations.EnvRampStep : Prop :=
  ∀ (g : Bit) (s : State), s.lpc = .top → s.upd = true → s.st = .decayRelease → s.noEdge g →
    let v := curveValue s.params.curveTable s.ph * s.dsc.toNat / 65536 + s.tgt.toNat
    (65535 - s.ph.toNat ≤ s.gr.toNat →
      exec (.env g) s = .next
        { s with db := s.heldDb, ph := 0#16, st := .idle, out := BitVec.ofNat 10 v, lpc := .clru }) ∧
    (s.gr.toNat < 65535 - s.ph.toNat →
      s.ph.toNat + s.gr.toNat ≤ 65535 ∧
      exec (.env g) s = .next
        { s with
          db := s.heldDb
          ph := BitVec.ofNat 16 (s.ph.toNat + s.gr.toNat)
          out := BitVec.ofNat 10 v
          lpc := .clru }) ∧
    (s.Inv → v ≤ 1023 ∧ (s.db = 0#7 → v < s.dsc.toNat) ∧ (s.db ≠ 0#7 → v = 1023 → s.dsc = 0#11))

/-- Neither ramp of `DecayRelease` ever raises the output (R165 items 3 and 4, derived there): of two envelope steps in
a row, with any other actions between them, the second does not put out more than the first. -/
def Obligations.RampNeverRises : Prop :=
  ∀ (g : Bit) (s t u x : State), s.Inv → s.st = .decayRelease →
    ((s.db = 0#7 ∧ g = 1#1) ∨ (s.db ≠ 0#7 ∧ g = 0#1)) →
    exec (.env g) s = .next t →
    u.st = t.st → u.ph = t.ph → u.gr = t.gr → u.dsc = t.dsc → u.tgt = t.tgt → u.out = t.out →
    u.db = t.db → u.params = t.params →
    exec (.env g) u = .next x → x.out.toNat ≤ t.out.toNat

/-- A ramp that no edge interrupts runs exactly `ceil(65535 / GR)` evaluation steps (R163, derived there), so it ends
(R165 item 7). -/
def Obligations.RampEndsAfterCeilSteps : Prop :=
  ∀ (g : Bit) (s : State), s.st = .decayRelease → s.ph = 0#16 → 1 ≤ s.gr.toNat →
    ((s.db = 0#7 ∧ g = 1#1) ∨ (s.db ≠ 0#7 ∧ g = 0#1)) →
    (∀ k, k < (65535 + s.gr.toNat - 1) / s.gr.toNat →
      (envSteps (List.replicate k g) s).st = .decayRelease ∧
      (envSteps (List.replicate k g) s).ph.toNat = k * s.gr.toNat) ∧
    (envSteps (List.replicate ((65535 + s.gr.toNat - 1) / s.gr.toNat) g) s).st = .idle ∧
    (envSteps (List.replicate ((65535 + s.gr.toNat - 1) / s.gr.toNat) g) s).ph = 0#16

/-- A release settles at output 0 for a table whose last entry is at most 64 (R257, R165 item 5, derived there; the
premise is the rule's). -/
def Obligations.ReleaseSettlesAtZero : Prop :=
  ∀ s t : State, s.Inv → s.st = .decayRelease → s.db = 0#7 →
    s.params.curveTable[255].toNat ≤ 64 → exec (.env 1#1) s = .next t → t.st = .idle → t.out = 0#10

/-- `Attacking` is entered only by the assertion edge (R153, R160): gate asserted, debounce counter 0. -/
def Obligations.OnlyAssertionEntersAttack : Prop :=
  ∀ (i : Instr) (s t : State), exec i s = .next t → t.st = .attacking →
    s.st = .attacking ∨ (i = .env 0#1 ∧ s.db = 0#7)

/-- No run re-enters `Attacking` without a gate release (R160, derived there; the source's claim W4): once the attack is
over with the note held, it stays over as long as no envelope step reads the gate released. -/
def Obligations.NoRetriggerWithoutRelease : Prop :=
  ∀ (acts : List Instr) (s t : State), s.st ≠ .attacking → s.db ≠ 0#7 →
    Instr.env 1#1 ∉ acts → runActions acts s = .next t → t.st ≠ .attacking ∧ t.db ≠ 0#7

/-- The debounce hold counts envelope steps and honours no edge before the hundredth (R151, R258, derived there; D5):
after an accepted assertion the counter is 100 less the envelope steps run since, whatever the gate and the other
actions do, and it never is 0. -/
def Obligations.DebounceCountsEnvelopeSteps : Prop :=
  ∀ (acts : List Instr) (s t : State), s.db = 100#7 → runActions acts s = .next t →
    acts.countP isEnv ≤ 99 → t.db.toNat = 100 - acts.countP isEnv

/-- Every attack ends for a table whose last entry is at most 9665 (R256, R161, derived there; the premise is the
rule's): within 65536 envelope steps, whatever the gate levels, the state is not `Attacking`. -/
def Obligations.AttackEndsForFallingTable : Prop :=
  ∀ (s : State) (gs : List Bit), s.Inv → s.st = .attacking →
    s.params.curveTable[255].toNat ≤ 9665 → gs.length = 65536 →
    ∃ k, k ≤ 65536 ∧ (envSteps (gs.take k) s).st ≠ .attacking

/-- Without that premise an attack may wrap its phase and never end, and the model keeps that run (R256, D4): there is a
legal table and a state that meets R49 from which the gate held asserted attacks for ever. -/
def Obligations.AttackMayNeverEnd : Prop :=
  ∃ s : State, s.Inv ∧ s.st = .attacking ∧
    ∀ n, (envSteps (List.replicate n 0#1) s).st = .attacking

/-- Parameters are read at stage entry only (R254, R165 item 2, derived there): a step that enters no stage is the same
whatever the control parameters are. -/
def Obligations.ParametersLatchedAtStageEntry : Prop :=
  ∀ (g : Bit) (s : State) (p : ParamStore), s.lpc = .top → s.upd = true → s.noEdge g →
    (s.st = .attacking →
      (65535 - curveValue s.params.curveTable s.ph) * s.dsc.toNat / 65536 < 1023) →
    ∃ t : State, exec (.env g) s = .next t ∧ exec (.env g) { s with par := p } = .next { t with par := p }

-- ## The sampler (43_sampler.md)

/-- `SAMP` with no conversion started (R191): it starts one of channel `CH`, with one event, and reads neither `r` nor
`v`. -/
def Obligations.SampStarts : Prop :=
  ∀ (r : Bit) (v : Level) (s : State), s.smp = true →
    (s.lpc = .schk ∨ (s.lpc = .top ∧ s.upd = false)) → s.started = false →
    exec (.samp r v) s = .next
      { s with events := s.events ++ [.start s.ch], started := true, lpc := .top }

/-- `SAMP` with a conversion started (R192; the channel order is the spec's own decision D7): not ready, nothing but
`LPC` changes; ready, `v` goes to `PAR[CH]`, `CH` advances modulo 4, `STARTED` and `SMP` are cleared. -/
def Obligations.SampPolls : Prop :=
  ∀ (v : Level) (s : State), s.smp = true →
    (s.lpc = .schk ∨ (s.lpc = .top ∧ s.upd = false)) → s.started = true →
    exec (.samp 0#1 v) s = .next { s with lpc := .top } ∧
    exec (.samp 1#1 v) s = .next
      { s with
        par := s.par.set s.ch.toNat v s.ch.isLt
        ch := BitVec.ofNat 2 ((s.ch.toNat + 1) % 4)
        started := false
        smp := false
        lpc := .top }

/-- Four collections in a row, with any other actions between them, refresh each parameter exactly once and come back to
the channel they started at (R194, derived there). -/
def Obligations.FourCollectionsRefreshAll : Prop :=
  ∀ (s₀ s₁ s₂ s₃ t₀ t₁ t₂ t₃ : State) (v₀ v₁ v₂ v₃ : Level),
    s₀.started = true → s₁.started = true → s₂.started = true → s₃.started = true →
    exec (.samp 1#1 v₀) s₀ = .next t₀ → s₁.par = t₀.par → s₁.ch = t₀.ch →
    exec (.samp 1#1 v₁) s₁ = .next t₁ → s₂.par = t₁.par → s₂.ch = t₁.ch →
    exec (.samp 1#1 v₂) s₂ = .next t₂ → s₃.par = t₂.par → s₃.ch = t₂.ch →
    exec (.samp 1#1 v₃) s₃ = .next t₃ →
    t₃.ch = s₀.ch ∧ t₃.parAt s₀.ch = v₀ ∧ t₃.parAt (s₀.ch + 1#2) = v₁ ∧
    t₃.parAt (s₀.ch + 2#2) = v₂ ∧ t₃.parAt (s₀.ch + 3#2) = v₃

/-- A converter that never answers ready leaves the parameters at their last values, and a started conversion pending,
through any run (R193). -/
def Obligations.StalledConverterKeepsParameters : Prop :=
  ∀ (acts : List Instr) (s t : State), (∀ i ∈ acts, isReadySamp i = false) →
    runActions acts s = .next t →
    t.par = s.par ∧ t.ch = s.ch ∧ (s.started = true → t.started = true) ∧
    (s.smp = true → t.smp = true)
end

