-- ==== Sys2Proof/Laws/Curve.lean ====
section
/-! SUPPORT. Ranges of the curve functions, and that the parameters at reset are legal. -/

namespace Sys2Proof.Machine

theorem rom_le (t : CurveTable) (i : BitVec 8) : rom t i ≤ 65535 := by
  have := (t[i.toNat]'(i.isLt)).isLt
  unfold rom
  omega

theorem segmentEnd_le (t : CurveTable) (i : BitVec 8) : segmentEnd t i ≤ 65535 := by
  unfold segmentEnd
  split
  · exact rom_le t _
  · omega

/-- A point between two bounds, as `curveValue` takes it. -/
theorem interpolate_le (a b m : Nat) (f : Nat) (ha : a ≤ m) (hb : b ≤ m) :
    b + (a - b) * (255 - f) / 256 ≤ m := by
  have h : (a - b) * (255 - f) / 256 ≤ a - b := by
    apply Nat.div_le_of_le_mul
    calc (a - b) * (255 - f) ≤ (a - b) * 256 := Nat.mul_le_mul_left _ (by omega)
      _ = 256 * (a - b) := Nat.mul_comm _ _
  omega

/-- `curveValue` is a 16-bit value for every table (R132, R134). -/
theorem curveValue_le (t : CurveTable) (p : Phase) : curveValue t p ≤ 65535 :=
  interpolate_le _ _ _ _ (rom_le t _) (segmentEnd_le t _)

/-- `granule` as a number: its result fits 8 bits (R137). -/
theorem granule_toNat (t : CurveTable) (q : Level) :
    (granule t q).toNat = max 1 (rom t (BitVec.ofNat 8 (q.toNat / 4)) / 256) := by
  have := rom_le t (BitVec.ofNat 8 (q.toNat / 4))
  simp only [granule, BitVec.toNat_ofNat]
  omega

theorem granule_pos (t : CurveTable) (q : Level) : 1 ≤ (granule t q).toNat := by
  rw [granule_toNat]
  omega

theorem fallingEntry_succ_le (f : Nat → Entry) (n : Nat) :
    (Config.fallingEntry f (n + 1)).toNat ≤ (Config.fallingEntry f n).toNat := by
  simp only [Config.fallingEntry]
  split
  · assumption
  · exact Nat.le_refl _

/-- Every table cut from a sequence is legal (R130). -/
theorem fallingTable_legal (f : Nat → Entry) : (Config.fallingTable f).legal := by
  constructor
  · simp [Config.fallingTable, Config.fallingEntry]
  · intro i
    simpa [Config.fallingTable] using fallingEntry_succ_le f i.val

theorem fallingEntry_of_legal (t : CurveTable) (h : t.legal) (n : Nat) (hn : n < 256) :
    Config.fallingEntry (fun i => if h : i < 256 then t[i] else 0#16) n = t[n] := by
  induction n with
  | zero => simp [Config.fallingEntry, h.1]
  | succ n ih =>
    have hle := h.2 ⟨n, by omega⟩
    simp only [Config.fallingEntry, ih (by omega), hn, dite_true]
    exact if_pos (BitVec.le_def.mpr hle)

/-- Every legal table is its own cut, so the free table at reset leaves no legal table out (R13, R130). -/
theorem fallingTable_of_legal (t : CurveTable) (h : t.legal) :
    Config.fallingTable (fun i => if h : i < 256 then t[i] else 0#16) = t := by
  ext i hi
  simp [Config.fallingTable, fallingEntry_of_legal t h i hi]

/-- The parameters at reset are legal (R9, R10, R130). -/
theorem params_legal : Config.params.legal := by
  refine ⟨Nat.le_add_left 1 _, ?_, fallingTable_legal _⟩
  calc Config.params.sampleInterval < 2 ^ (Nat.log2 (Config.freeIntervalExcess + 1) + 1) :=
        Nat.lt_log2_self
    _ ≤ 2 ^ Config.params.cdWidth := Nat.pow_le_pow_right (by omega) (Nat.le_add_right _ _)

end Sys2Proof.Machine
end

