-- ==== Sys2Proof/Laws/State.lean ====
section
/-! SUPPORT. One lemma per field per named update of State, each true by rfl, so that no later proof unfolds a
record update. -/

namespace Sys2Proof.Machine

variable (s : State)

@[simp] theorem State.setLpc_st (l : LoopPos) : (s.setLpc l).st = s.st := rfl
@[simp] theorem State.setLpc_ph (l : LoopPos) : (s.setLpc l).ph = s.ph := rfl
@[simp] theorem State.setLpc_gr (l : LoopPos) : (s.setLpc l).gr = s.gr := rfl
@[simp] theorem State.setLpc_dsc (l : LoopPos) : (s.setLpc l).dsc = s.dsc := rfl
@[simp] theorem State.setLpc_tgt (l : LoopPos) : (s.setLpc l).tgt = s.tgt := rfl
@[simp] theorem State.setLpc_out (l : LoopPos) : (s.setLpc l).out = s.out := rfl
@[simp] theorem State.setLpc_db (l : LoopPos) : (s.setLpc l).db = s.db := rfl
@[simp] theorem State.setLpc_par (l : LoopPos) : (s.setLpc l).par = s.par := rfl
@[simp] theorem State.setLpc_ch (l : LoopPos) : (s.setLpc l).ch = s.ch := rfl
@[simp] theorem State.setLpc_started (l : LoopPos) : (s.setLpc l).started = s.started := rfl
@[simp] theorem State.setLpc_upd (l : LoopPos) : (s.setLpc l).upd = s.upd := rfl
@[simp] theorem State.setLpc_smp (l : LoopPos) : (s.setLpc l).smp = s.smp := rfl
@[simp] theorem State.setLpc_cd (l : LoopPos) : (s.setLpc l).cd = s.cd := rfl
@[simp] theorem State.setLpc_lpc (l : LoopPos) : (s.setLpc l).lpc = l := rfl
@[simp] theorem State.setLpc_duty (l : LoopPos) : (s.setLpc l).duty = s.duty := rfl
@[simp] theorem State.setLpc_events (l : LoopPos) : (s.setLpc l).events = s.events := rfl
@[simp] theorem State.setLpc_sched (l : LoopPos) : (s.setLpc l).sched = s.sched := rfl
@[simp] theorem State.setLpc_params (l : LoopPos) : (s.setLpc l).params = s.params := rfl

@[simp] theorem State.dutyWrite_st (x : Level) : (s.dutyWrite x).st = s.st := rfl
@[simp] theorem State.dutyWrite_ph (x : Level) : (s.dutyWrite x).ph = s.ph := rfl
@[simp] theorem State.dutyWrite_gr (x : Level) : (s.dutyWrite x).gr = s.gr := rfl
@[simp] theorem State.dutyWrite_dsc (x : Level) : (s.dutyWrite x).dsc = s.dsc := rfl
@[simp] theorem State.dutyWrite_tgt (x : Level) : (s.dutyWrite x).tgt = s.tgt := rfl
@[simp] theorem State.dutyWrite_out (x : Level) : (s.dutyWrite x).out = s.out := rfl
@[simp] theorem State.dutyWrite_db (x : Level) : (s.dutyWrite x).db = s.db := rfl
@[simp] theorem State.dutyWrite_par (x : Level) : (s.dutyWrite x).par = s.par := rfl
@[simp] theorem State.dutyWrite_ch (x : Level) : (s.dutyWrite x).ch = s.ch := rfl
@[simp] theorem State.dutyWrite_started (x : Level) : (s.dutyWrite x).started = s.started := rfl
@[simp] theorem State.dutyWrite_upd (x : Level) : (s.dutyWrite x).upd = s.upd := rfl
@[simp] theorem State.dutyWrite_smp (x : Level) : (s.dutyWrite x).smp = s.smp := rfl
@[simp] theorem State.dutyWrite_cd (x : Level) : (s.dutyWrite x).cd = s.cd := rfl
@[simp] theorem State.dutyWrite_lpc (x : Level) : (s.dutyWrite x).lpc = s.lpc := rfl
@[simp] theorem State.dutyWrite_duty (x : Level) : (s.dutyWrite x).duty = some x := rfl
@[simp] theorem State.dutyWrite_events (x : Level) : (s.dutyWrite x).events = s.events ++ [.duty x] := rfl
@[simp] theorem State.dutyWrite_sched (x : Level) : (s.dutyWrite x).sched = s.sched := rfl
@[simp] theorem State.dutyWrite_params (x : Level) : (s.dutyWrite x).params = s.params := rfl

@[simp] theorem State.adcStart_st (c : Channel) : (s.adcStart c).st = s.st := rfl
@[simp] theorem State.adcStart_ph (c : Channel) : (s.adcStart c).ph = s.ph := rfl
@[simp] theorem State.adcStart_gr (c : Channel) : (s.adcStart c).gr = s.gr := rfl
@[simp] theorem State.adcStart_dsc (c : Channel) : (s.adcStart c).dsc = s.dsc := rfl
@[simp] theorem State.adcStart_tgt (c : Channel) : (s.adcStart c).tgt = s.tgt := rfl
@[simp] theorem State.adcStart_out (c : Channel) : (s.adcStart c).out = s.out := rfl
@[simp] theorem State.adcStart_db (c : Channel) : (s.adcStart c).db = s.db := rfl
@[simp] theorem State.adcStart_par (c : Channel) : (s.adcStart c).par = s.par := rfl
@[simp] theorem State.adcStart_ch (c : Channel) : (s.adcStart c).ch = s.ch := rfl
@[simp] theorem State.adcStart_started (c : Channel) : (s.adcStart c).started = s.started := rfl
@[simp] theorem State.adcStart_upd (c : Channel) : (s.adcStart c).upd = s.upd := rfl
@[simp] theorem State.adcStart_smp (c : Channel) : (s.adcStart c).smp = s.smp := rfl
@[simp] theorem State.adcStart_cd (c : Channel) : (s.adcStart c).cd = s.cd := rfl
@[simp] theorem State.adcStart_lpc (c : Channel) : (s.adcStart c).lpc = s.lpc := rfl
@[simp] theorem State.adcStart_duty (c : Channel) : (s.adcStart c).duty = s.duty := rfl
@[simp] theorem State.adcStart_events (c : Channel) : (s.adcStart c).events = s.events ++ [.start c] := rfl
@[simp] theorem State.adcStart_sched (c : Channel) : (s.adcStart c).sched = s.sched := rfl
@[simp] theorem State.adcStart_params (c : Channel) : (s.adcStart c).params = s.params := rfl

@[simp] theorem State.setPar_st (c : Channel) (v : Level) : (s.setPar c v).st = s.st := rfl
@[simp] theorem State.setPar_ph (c : Channel) (v : Level) : (s.setPar c v).ph = s.ph := rfl
@[simp] theorem State.setPar_gr (c : Channel) (v : Level) : (s.setPar c v).gr = s.gr := rfl
@[simp] theorem State.setPar_dsc (c : Channel) (v : Level) : (s.setPar c v).dsc = s.dsc := rfl
@[simp] theorem State.setPar_tgt (c : Channel) (v : Level) : (s.setPar c v).tgt = s.tgt := rfl
@[simp] theorem State.setPar_out (c : Channel) (v : Level) : (s.setPar c v).out = s.out := rfl
@[simp] theorem State.setPar_db (c : Channel) (v : Level) : (s.setPar c v).db = s.db := rfl
@[simp] theorem State.setPar_par (c : Channel) (v : Level) : (s.setPar c v).par = s.par.set c.toNat v c.isLt := rfl
@[simp] theorem State.setPar_ch (c : Channel) (v : Level) : (s.setPar c v).ch = s.ch := rfl
@[simp] theorem State.setPar_started (c : Channel) (v : Level) : (s.setPar c v).started = s.started := rfl
@[simp] theorem State.setPar_upd (c : Channel) (v : Level) : (s.setPar c v).upd = s.upd := rfl
@[simp] theorem State.setPar_smp (c : Channel) (v : Level) : (s.setPar c v).smp = s.smp := rfl
@[simp] theorem State.setPar_cd (c : Channel) (v : Level) : (s.setPar c v).cd = s.cd := rfl
@[simp] theorem State.setPar_lpc (c : Channel) (v : Level) : (s.setPar c v).lpc = s.lpc := rfl
@[simp] theorem State.setPar_duty (c : Channel) (v : Level) : (s.setPar c v).duty = s.duty := rfl
@[simp] theorem State.setPar_events (c : Channel) (v : Level) : (s.setPar c v).events = s.events := rfl
@[simp] theorem State.setPar_sched (c : Channel) (v : Level) : (s.setPar c v).sched = s.sched := rfl
@[simp] theorem State.setPar_params (c : Channel) (v : Level) : (s.setPar c v).params = s.params := rfl

@[simp] theorem State.advanceCh_st : (s.advanceCh).st = s.st := rfl
@[simp] theorem State.advanceCh_ph : (s.advanceCh).ph = s.ph := rfl
@[simp] theorem State.advanceCh_gr : (s.advanceCh).gr = s.gr := rfl
@[simp] theorem State.advanceCh_dsc : (s.advanceCh).dsc = s.dsc := rfl
@[simp] theorem State.advanceCh_tgt : (s.advanceCh).tgt = s.tgt := rfl
@[simp] theorem State.advanceCh_out : (s.advanceCh).out = s.out := rfl
@[simp] theorem State.advanceCh_db : (s.advanceCh).db = s.db := rfl
@[simp] theorem State.advanceCh_par : (s.advanceCh).par = s.par := rfl
@[simp] theorem State.advanceCh_ch : (s.advanceCh).ch = s.ch + 1#2 := rfl
@[simp] theorem State.advanceCh_started : (s.advanceCh).started = s.started := rfl
@[simp] theorem State.advanceCh_upd : (s.advanceCh).upd = s.upd := rfl
@[simp] theorem State.advanceCh_smp : (s.advanceCh).smp = s.smp := rfl
@[simp] theorem State.advanceCh_cd : (s.advanceCh).cd = s.cd := rfl
@[simp] theorem State.advanceCh_lpc : (s.advanceCh).lpc = s.lpc := rfl
@[simp] theorem State.advanceCh_duty : (s.advanceCh).duty = s.duty := rfl
@[simp] theorem State.advanceCh_events : (s.advanceCh).events = s.events := rfl
@[simp] theorem State.advanceCh_sched : (s.advanceCh).sched = s.sched := rfl
@[simp] theorem State.advanceCh_params : (s.advanceCh).params = s.params := rfl

@[simp] theorem State.setStarted_st (b : Bool) : (s.setStarted b).st = s.st := rfl
@[simp] theorem State.setStarted_ph (b : Bool) : (s.setStarted b).ph = s.ph := rfl
@[simp] theorem State.setStarted_gr (b : Bool) : (s.setStarted b).gr = s.gr := rfl
@[simp] theorem State.setStarted_dsc (b : Bool) : (s.setStarted b).dsc = s.dsc := rfl
@[simp] theorem State.setStarted_tgt (b : Bool) : (s.setStarted b).tgt = s.tgt := rfl
@[simp] theorem State.setStarted_out (b : Bool) : (s.setStarted b).out = s.out := rfl
@[simp] theorem State.setStarted_db (b : Bool) : (s.setStarted b).db = s.db := rfl
@[simp] theorem State.setStarted_par (b : Bool) : (s.setStarted b).par = s.par := rfl
@[simp] theorem State.setStarted_ch (b : Bool) : (s.setStarted b).ch = s.ch := rfl
@[simp] theorem State.setStarted_started (b : Bool) : (s.setStarted b).started = b := rfl
@[simp] theorem State.setStarted_upd (b : Bool) : (s.setStarted b).upd = s.upd := rfl
@[simp] theorem State.setStarted_smp (b : Bool) : (s.setStarted b).smp = s.smp := rfl
@[simp] theorem State.setStarted_cd (b : Bool) : (s.setStarted b).cd = s.cd := rfl
@[simp] theorem State.setStarted_lpc (b : Bool) : (s.setStarted b).lpc = s.lpc := rfl
@[simp] theorem State.setStarted_duty (b : Bool) : (s.setStarted b).duty = s.duty := rfl
@[simp] theorem State.setStarted_events (b : Bool) : (s.setStarted b).events = s.events := rfl
@[simp] theorem State.setStarted_sched (b : Bool) : (s.setStarted b).sched = s.sched := rfl
@[simp] theorem State.setStarted_params (b : Bool) : (s.setStarted b).params = s.params := rfl

@[simp] theorem State.setOut_st (v : Nat) : (s.setOut v).st = s.st := rfl
@[simp] theorem State.setOut_ph (v : Nat) : (s.setOut v).ph = s.ph := rfl
@[simp] theorem State.setOut_gr (v : Nat) : (s.setOut v).gr = s.gr := rfl
@[simp] theorem State.setOut_dsc (v : Nat) : (s.setOut v).dsc = s.dsc := rfl
@[simp] theorem State.setOut_tgt (v : Nat) : (s.setOut v).tgt = s.tgt := rfl
@[simp] theorem State.setOut_out (v : Nat) : (s.setOut v).out = BitVec.ofNat 10 v := rfl
@[simp] theorem State.setOut_db (v : Nat) : (s.setOut v).db = s.db := rfl
@[simp] theorem State.setOut_par (v : Nat) : (s.setOut v).par = s.par := rfl
@[simp] theorem State.setOut_ch (v : Nat) : (s.setOut v).ch = s.ch := rfl
@[simp] theorem State.setOut_started (v : Nat) : (s.setOut v).started = s.started := rfl
@[simp] theorem State.setOut_upd (v : Nat) : (s.setOut v).upd = s.upd := rfl
@[simp] theorem State.setOut_smp (v : Nat) : (s.setOut v).smp = s.smp := rfl
@[simp] theorem State.setOut_cd (v : Nat) : (s.setOut v).cd = s.cd := rfl
@[simp] theorem State.setOut_lpc (v : Nat) : (s.setOut v).lpc = s.lpc := rfl
@[simp] theorem State.setOut_duty (v : Nat) : (s.setOut v).duty = s.duty := rfl
@[simp] theorem State.setOut_events (v : Nat) : (s.setOut v).events = s.events := rfl
@[simp] theorem State.setOut_sched (v : Nat) : (s.setOut v).sched = s.sched := rfl
@[simp] theorem State.setOut_params (v : Nat) : (s.setOut v).params = s.params := rfl

@[simp] theorem State.pushWord_st (w : EventWord) : (s.pushWord w).st = s.st := rfl
@[simp] theorem State.pushWord_ph (w : EventWord) : (s.pushWord w).ph = s.ph := rfl
@[simp] theorem State.pushWord_gr (w : EventWord) : (s.pushWord w).gr = s.gr := rfl
@[simp] theorem State.pushWord_dsc (w : EventWord) : (s.pushWord w).dsc = s.dsc := rfl
@[simp] theorem State.pushWord_tgt (w : EventWord) : (s.pushWord w).tgt = s.tgt := rfl
@[simp] theorem State.pushWord_out (w : EventWord) : (s.pushWord w).out = s.out := rfl
@[simp] theorem State.pushWord_db (w : EventWord) : (s.pushWord w).db = s.db := rfl
@[simp] theorem State.pushWord_par (w : EventWord) : (s.pushWord w).par = s.par := rfl
@[simp] theorem State.pushWord_ch (w : EventWord) : (s.pushWord w).ch = s.ch := rfl
@[simp] theorem State.pushWord_started (w : EventWord) : (s.pushWord w).started = s.started := rfl
@[simp] theorem State.pushWord_upd (w : EventWord) : (s.pushWord w).upd = s.upd := rfl
@[simp] theorem State.pushWord_smp (w : EventWord) : (s.pushWord w).smp = s.smp := rfl
@[simp] theorem State.pushWord_cd (w : EventWord) : (s.pushWord w).cd = s.cd := rfl
@[simp] theorem State.pushWord_lpc (w : EventWord) : (s.pushWord w).lpc = s.lpc := rfl
@[simp] theorem State.pushWord_duty (w : EventWord) : (s.pushWord w).duty = s.duty := rfl
@[simp] theorem State.pushWord_events (w : EventWord) : (s.pushWord w).events = s.events := rfl
@[simp] theorem State.pushWord_sched (w : EventWord) : (s.pushWord w).sched = w :: s.sched := rfl
@[simp] theorem State.pushWord_params (w : EventWord) : (s.pushWord w).params = s.params := rfl

@[simp] theorem State.setUpd_st : (s.setUpd).st = s.st := rfl
@[simp] theorem State.setUpd_ph : (s.setUpd).ph = s.ph := rfl
@[simp] theorem State.setUpd_gr : (s.setUpd).gr = s.gr := rfl
@[simp] theorem State.setUpd_dsc : (s.setUpd).dsc = s.dsc := rfl
@[simp] theorem State.setUpd_tgt : (s.setUpd).tgt = s.tgt := rfl
@[simp] theorem State.setUpd_out : (s.setUpd).out = s.out := rfl
@[simp] theorem State.setUpd_db : (s.setUpd).db = s.db := rfl
@[simp] theorem State.setUpd_par : (s.setUpd).par = s.par := rfl
@[simp] theorem State.setUpd_ch : (s.setUpd).ch = s.ch := rfl
@[simp] theorem State.setUpd_started : (s.setUpd).started = s.started := rfl
@[simp] theorem State.setUpd_upd : (s.setUpd).upd = true := rfl
@[simp] theorem State.setUpd_smp : (s.setUpd).smp = s.smp := rfl
@[simp] theorem State.setUpd_cd : (s.setUpd).cd = s.cd := rfl
@[simp] theorem State.setUpd_lpc : (s.setUpd).lpc = s.lpc := rfl
@[simp] theorem State.setUpd_duty : (s.setUpd).duty = s.duty := rfl
@[simp] theorem State.setUpd_events : (s.setUpd).events = s.events := rfl
@[simp] theorem State.setUpd_sched : (s.setUpd).sched = s.sched := rfl
@[simp] theorem State.setUpd_params : (s.setUpd).params = s.params := rfl

@[simp] theorem State.clearUpd_st : (s.clearUpd).st = s.st := rfl
@[simp] theorem State.clearUpd_ph : (s.clearUpd).ph = s.ph := rfl
@[simp] theorem State.clearUpd_gr : (s.clearUpd).gr = s.gr := rfl
@[simp] theorem State.clearUpd_dsc : (s.clearUpd).dsc = s.dsc := rfl
@[simp] theorem State.clearUpd_tgt : (s.clearUpd).tgt = s.tgt := rfl
@[simp] theorem State.clearUpd_out : (s.clearUpd).out = s.out := rfl
@[simp] theorem State.clearUpd_db : (s.clearUpd).db = s.db := rfl
@[simp] theorem State.clearUpd_par : (s.clearUpd).par = s.par := rfl
@[simp] theorem State.clearUpd_ch : (s.clearUpd).ch = s.ch := rfl
@[simp] theorem State.clearUpd_started : (s.clearUpd).started = s.started := rfl
@[simp] theorem State.clearUpd_upd : (s.clearUpd).upd = false := rfl
@[simp] theorem State.clearUpd_smp : (s.clearUpd).smp = s.smp := rfl
@[simp] theorem State.clearUpd_cd : (s.clearUpd).cd = s.cd := rfl
@[simp] theorem State.clearUpd_lpc : (s.clearUpd).lpc = s.lpc := rfl
@[simp] theorem State.clearUpd_duty : (s.clearUpd).duty = s.duty := rfl
@[simp] theorem State.clearUpd_events : (s.clearUpd).events = s.events := rfl
@[simp] theorem State.clearUpd_sched : (s.clearUpd).sched = s.sched := rfl
@[simp] theorem State.clearUpd_params : (s.clearUpd).params = s.params := rfl

@[simp] theorem State.setSmp_st : (s.setSmp).st = s.st := rfl
@[simp] theorem State.setSmp_ph : (s.setSmp).ph = s.ph := rfl
@[simp] theorem State.setSmp_gr : (s.setSmp).gr = s.gr := rfl
@[simp] theorem State.setSmp_dsc : (s.setSmp).dsc = s.dsc := rfl
@[simp] theorem State.setSmp_tgt : (s.setSmp).tgt = s.tgt := rfl
@[simp] theorem State.setSmp_out : (s.setSmp).out = s.out := rfl
@[simp] theorem State.setSmp_db : (s.setSmp).db = s.db := rfl
@[simp] theorem State.setSmp_par : (s.setSmp).par = s.par := rfl
@[simp] theorem State.setSmp_ch : (s.setSmp).ch = s.ch := rfl
@[simp] theorem State.setSmp_started : (s.setSmp).started = s.started := rfl
@[simp] theorem State.setSmp_upd : (s.setSmp).upd = s.upd := rfl
@[simp] theorem State.setSmp_smp : (s.setSmp).smp = true := rfl
@[simp] theorem State.setSmp_cd : (s.setSmp).cd = s.cd := rfl
@[simp] theorem State.setSmp_lpc : (s.setSmp).lpc = s.lpc := rfl
@[simp] theorem State.setSmp_duty : (s.setSmp).duty = s.duty := rfl
@[simp] theorem State.setSmp_events : (s.setSmp).events = s.events := rfl
@[simp] theorem State.setSmp_sched : (s.setSmp).sched = s.sched := rfl
@[simp] theorem State.setSmp_params : (s.setSmp).params = s.params := rfl

@[simp] theorem State.clearSmp_st : (s.clearSmp).st = s.st := rfl
@[simp] theorem State.clearSmp_ph : (s.clearSmp).ph = s.ph := rfl
@[simp] theorem State.clearSmp_gr : (s.clearSmp).gr = s.gr := rfl
@[simp] theorem State.clearSmp_dsc : (s.clearSmp).dsc = s.dsc := rfl
@[simp] theorem State.clearSmp_tgt : (s.clearSmp).tgt = s.tgt := rfl
@[simp] theorem State.clearSmp_out : (s.clearSmp).out = s.out := rfl
@[simp] theorem State.clearSmp_db : (s.clearSmp).db = s.db := rfl
@[simp] theorem State.clearSmp_par : (s.clearSmp).par = s.par := rfl
@[simp] theorem State.clearSmp_ch : (s.clearSmp).ch = s.ch := rfl
@[simp] theorem State.clearSmp_started : (s.clearSmp).started = s.started := rfl
@[simp] theorem State.clearSmp_upd : (s.clearSmp).upd = s.upd := rfl
@[simp] theorem State.clearSmp_smp : (s.clearSmp).smp = false := rfl
@[simp] theorem State.clearSmp_cd : (s.clearSmp).cd = s.cd := rfl
@[simp] theorem State.clearSmp_lpc : (s.clearSmp).lpc = s.lpc := rfl
@[simp] theorem State.clearSmp_duty : (s.clearSmp).duty = s.duty := rfl
@[simp] theorem State.clearSmp_events : (s.clearSmp).events = s.events := rfl
@[simp] theorem State.clearSmp_sched : (s.clearSmp).sched = s.sched := rfl
@[simp] theorem State.clearSmp_params : (s.clearSmp).params = s.params := rfl

end Sys2Proof.Machine
end

