-- ==== Sys2Proof/Laws/Exec.lean ====
section
/-! SUPPORT. What the loop's shared operations can do: enabling, the countdown, fetching, and the inversion of each
meaning. -/

namespace Sys2Proof.Machine

@[simp] theorem whenEnabled_next {b : Bool} {t u : State} :
    whenEnabled b t = .next u ↔ b = true ∧ u = t := by
  cases b <;> simp [whenEnabled, eq_comm]

@[simp] theorem whenEnabled_true (t : State) : whenEnabled true t = .next t := rfl

@[simp] theorem whenEnabled_false (t : State) : whenEnabled false t = .fault .notEnabled := rfl

theorem envEnabled_iff {s : State} : s.envEnabled = true ↔ s.lpc = .top ∧ s.upd = true := by
  simp [State.envEnabled]

theorem clruEnabled_iff {s : State} : s.clruEnabled = true ↔ s.lpc = .clru := by
  simp [State.clruEnabled]

theorem atSampleCheck_iff {s : State} :
    s.atSampleCheck = true ↔ s.lpc = .schk ∨ (s.lpc = .top ∧ s.upd = false) := by
  simp [State.atSampleCheck]

theorem sampEnabled_iff {s : State} :
    s.sampEnabled = true ↔ s.smp = true ∧ (s.lpc = .schk ∨ (s.lpc = .top ∧ s.upd = false)) := by
  simp [State.sampEnabled, atSampleCheck_iff, and_comm]

theorem loopEnabled_iff {s : State} :
    s.loopEnabled = true ↔ s.smp = false ∧ (s.lpc = .schk ∨ (s.lpc = .top ∧ s.upd = false)) := by
  simp [State.loopEnabled, atSampleCheck_iff, and_comm]

/-- The countdown changes `SMP` and `CD` only. -/
theorem countdown_eq (s : State) :
    s.countdown = { s with
      smp := s.smp || decide (s.cd - 1 = 0)
      cd := if s.cd - 1 = 0 then s.params.sampleInterval else s.cd - 1 } := by
  unfold State.countdown
  split <;> simp_all [State.setSmp]

/-- A tick, as one record. -/
theorem execTick_eq (s : State) :
    execTick s = .next { s with
      duty := some s.out
      events := s.events ++ [.duty s.out]
      upd := true
      smp := s.smp || decide (s.cd - 1 = 0)
      cd := if s.cd - 1 = 0 then s.params.sampleInterval else s.cd - 1 } := by
  rw [execTick, countdown_eq]
  rfl

theorem execEnv_next {g : Bit} {s t : State} :
    execEnv g s = .next t ↔ s.lpc = .top ∧ s.upd = true ∧ t = (s.envStep g).setLpc .clru := by
  rw [execEnv, whenEnabled_next, envEnabled_iff, and_assoc]

theorem execClru_next {s t : State} :
    execClru s = .next t ↔ s.lpc = .clru ∧ t = { s with upd := false, lpc := .schk } := by
  rw [execClru, whenEnabled_next, clruEnabled_iff]
  rfl

theorem execLoop_next {s t : State} :
    execLoop s = .next t ↔
      (s.smp = false ∧ (s.lpc = .schk ∨ (s.lpc = .top ∧ s.upd = false))) ∧ t = { s with lpc := .top } := by
  rw [execLoop, whenEnabled_next, loopEnabled_iff]
  rfl

theorem execSamp_next {r : Bit} {v : Level} {s t : State} :
    execSamp r v s = .next t ↔
      (s.smp = true ∧ (s.lpc = .schk ∨ (s.lpc = .top ∧ s.upd = false))) ∧
        t = (s.sampleStep r v).setLpc .top := by
  rw [execSamp, whenEnabled_next, sampEnabled_iff]

/-- Everything a sampler step can do (R190): start, wait, or collect. -/
theorem sampleStep_cases (r : Bit) (v : Level) (s : State) :
    (s.started = false ∧ s.sampleStep r v = { s with events := s.events ++ [.start s.ch], started := true }) ∨
    (s.started = true ∧ r = 0#1 ∧ s.sampleStep r v = s) ∨
    (s.started = true ∧ r = 1#1 ∧ s.sampleStep r v =
      { s with par := s.par.set s.ch.toNat v s.ch.isLt, ch := s.ch + 1#2, started := false, smp := false }) := by
  have hr : r = 0#1 ∨ r = 1#1 := by
    revert r; decide
  cases hs : s.started
  · exact .inl ⟨rfl, by simp [State.sampleStep, hs, State.startConversion, State.adcStart, State.setStarted]⟩
  · rcases hr with rfl | rfl
    · exact .inr (.inl ⟨rfl, rfl, by simp [State.sampleStep, hs, conversionReady]⟩)
    · exact .inr (.inr ⟨rfl, rfl, by
        simp [State.sampleStep, hs, conversionReady, State.collect, State.setPar, State.advanceCh,
          State.setStarted, State.clearSmp]⟩)

theorem fetch_cons {s : State} {w : EventWord} {rest : List EventWord} (h : s.sched = w :: rest) :
    s.fetch = some (w, { s with sched := rest }) := by
  simp [State.fetch, h]

theorem fetch_nil {s : State} (h : s.sched = []) : s.fetch = none := by
  simp [State.fetch, h]

/-- A run of appended actions is the one run after the other. -/
theorem runActions_append (as bs : List Instr) {s t : State} (h : runActions as s = .next t) :
    runActions (as ++ bs) s = runActions bs t := by
  induction as generalizing s with
  | nil => cases h; rfl
  | cons i as ih =>
    simp only [runActions, List.cons_append] at h ⊢
    cases hi : exec i s <;> simp only [hi] at h ⊢
    · exact ih h
    · cases h
    · cases h

/-- A run that completes takes its first action and then runs the rest. -/
theorem runActions_cons_next {i : Instr} {rest : List Instr} {s t : State} :
    runActions (i :: rest) s = .next t ↔ ∃ u, exec i s = .next u ∧ runActions rest u = .next t := by
  simp only [runActions]
  cases exec i s <;> simp

end Sys2Proof.Machine
end

