-- ==== Sys2Proof/Laws/Envelope.lean ====
section
/-! SUPPORT. What an envelope step can do: the branches of its two phases, and its frame. -/

namespace Sys2Proof.Machine

theorem bit_cases (g : Bit) : g = 0#1 ∨ g = 1#1 := by
  revert g; decide

/-- Phase 1 without an edge (R151, R152). -/
theorem edgeDetect_noEdge {g : Bit} {s : State} (h : s.noEdge g) :
    s.edgeDetect g = { s with db := s.heldDb } := by
  unfold State.edgeDetect State.heldDb
  rcases h with h | ⟨h, rfl⟩ | ⟨h, rfl⟩
  · simp [h, State.holdDebounce]
  · cases s; simp_all [gateAsserted]
  · cases s; simp_all [gateAsserted]

/-- Phase 1 at the assertion edge (R153). -/
theorem edgeDetect_assertion {s : State} (h : s.db = 0#7) : s.edgeDetect 0#1 = s.assertionEdge := by
  simp [State.edgeDetect, h, gateAsserted]

/-- Phase 1 at the release edge (R154). -/
theorem edgeDetect_release {s : State} (h : s.db = 1#7) : s.edgeDetect 1#1 = s.releaseEdge := by
  simp [State.edgeDetect, h, gateAsserted]

/-- Everything phase 1 can find (R151 to R154). -/
theorem edge_cases (g : Bit) (s : State) :
    s.noEdge g ∨ (s.db = 0#7 ∧ g = 0#1) ∨ (s.db = 1#7 ∧ g = 1#1) := by
  by_cases h : 1 < s.db.toNat
  · exact .inl (.inl h)
  · have hd : s.db = 0#7 ∨ s.db = 1#7 := by
      have : s.db.toNat = 0 ∨ s.db.toNat = 1 := by omega
      rcases this with h | h
      · exact .inl (BitVec.eq_of_toNat_eq h)
      · exact .inr (BitVec.eq_of_toNat_eq h)
    rcases hd with h | h <;> rcases bit_cases g with rfl | rfl <;> simp [State.noEdge, h]

/-- What `R150` may write: an envelope step of phase 1 changes engine registers only. -/
theorem edgeDetect_frame (g : Bit) (s : State) :
    s.edgeDetect g = { s with
      st := (s.edgeDetect g).st, ph := (s.edgeDetect g).ph, gr := (s.edgeDetect g).gr,
      dsc := (s.edgeDetect g).dsc, tgt := (s.edgeDetect g).tgt, db := (s.edgeDetect g).db } := by
  unfold State.edgeDetect State.releaseEdge
  repeat' split
  all_goals rfl

theorem evalStage_frame (s : State) :
    s.evalStage = { s with
      st := s.evalStage.st, ph := s.evalStage.ph, gr := s.evalStage.gr, dsc := s.evalStage.dsc,
      tgt := s.evalStage.tgt, out := s.evalStage.out } := by
  unfold State.evalStage State.evalAttack State.evalRamp
  repeat' split
  all_goals rfl

/-- The frame of the envelope step (R150): it writes `ST, PH, GR, DSC, TGT, OUT, DB` and nothing else. -/
theorem envStep_frame (g : Bit) (s : State) :
    s.envStep g = { s with
      st := (s.envStep g).st, ph := (s.envStep g).ph, gr := (s.envStep g).gr, dsc := (s.envStep g).dsc,
      tgt := (s.envStep g).tgt, out := (s.envStep g).out, db := (s.envStep g).db } := by
  unfold State.envStep
  have h₁ := edgeDetect_frame g s
  have h₂ := evalStage_frame (s.edgeDetect g)
  revert h₁ h₂
  generalize s.edgeDetect g = u
  generalize u.evalStage = w
  intro h₁ h₂
  cases s; cases u; cases w
  simp_all

@[simp] theorem envStep_par (g : Bit) (s : State) : (s.envStep g).par = s.par := by rw [envStep_frame]
@[simp] theorem envStep_ch (g : Bit) (s : State) : (s.envStep g).ch = s.ch := by rw [envStep_frame]
@[simp] theorem envStep_started (g : Bit) (s : State) : (s.envStep g).started = s.started := by rw [envStep_frame]
@[simp] theorem envStep_upd (g : Bit) (s : State) : (s.envStep g).upd = s.upd := by rw [envStep_frame]
@[simp] theorem envStep_smp (g : Bit) (s : State) : (s.envStep g).smp = s.smp := by rw [envStep_frame]
@[simp] theorem envStep_cd (g : Bit) (s : State) : (s.envStep g).cd = s.cd := by rw [envStep_frame]
@[simp] theorem envStep_lpc (g : Bit) (s : State) : (s.envStep g).lpc = s.lpc := by rw [envStep_frame]
@[simp] theorem envStep_duty (g : Bit) (s : State) : (s.envStep g).duty = s.duty := by rw [envStep_frame]
@[simp] theorem envStep_events (g : Bit) (s : State) : (s.envStep g).events = s.events := by rw [envStep_frame]
@[simp] theorem envStep_sched (g : Bit) (s : State) : (s.envStep g).sched = s.sched := by rw [envStep_frame]
@[simp] theorem envStep_params (g : Bit) (s : State) : (s.envStep g).params = s.params := by rw [envStep_frame]

/-- `Idle` (R164): phase 2 changes nothing. -/
theorem evalStage_idle {s : State} (h : s.st = .idle) : s.evalStage = s := by
  simp [State.evalStage, h]

/-- The attack below the threshold (R158, R161), as one record. -/
theorem evalStage_attack {s : State} (h : s.st = .attacking) (hv : s.attackValue < 1023) :
    s.evalStage =
      { s with ph := s.ph + s.gr.setWidth 16, out := BitVec.ofNat 10 s.attackValue } := by
  have : ¬ fullScale ≤ s.attackValue := by unfold fullScale; omega
  simp [State.evalStage, h, State.evalAttack, this, State.advancePhase, State.setOut]

/-- The attack at the threshold (R159, R160), as one record. -/
theorem evalStage_threshold {s : State} (h : s.st = .attacking) (hv : 1023 ≤ s.attackValue) :
    s.evalStage =
      { s with
        tgt := s.par[2].setWidth 11
        dsc := BitVec.ofNat 11 (1023 - s.par[2].toNat)
        ph := 0#16
        gr := granule s.params.curveTable s.par[1]
        st := .decayRelease
        out := 1023#10 } := by
  have : State.evalAttack s = s.enterDecay.setOut fullScale := if_pos hv
  simp [State.evalStage, h, this, State.enterDecay, State.setOut, State.sustainParam,
    State.decayParam, State.parAt, fullScale]

/-- The end of a ramp (R162, R163), as one record. -/
theorem evalStage_rampEnd {s : State} (h : s.st = .decayRelease) (hp : 65535 - s.ph.toNat ≤ s.gr.toNat) :
    s.evalStage = { s with ph := 0#16, st := .idle, out := BitVec.ofNat 10 s.rampValue } := by
  simp [State.evalStage, h, State.evalRamp, hp, State.endRamp, State.setOut]

/-- A ramp going on (R162, R163), as one record. -/
theorem evalStage_ramp {s : State} (h : s.st = .decayRelease) (hp : s.gr.toNat < 65535 - s.ph.toNat) :
    s.evalStage =
      { s with ph := s.ph + s.gr.setWidth 16, out := BitVec.ofNat 10 s.rampValue } := by
  have : ¬ 65535 - s.ph.toNat ≤ s.gr.toNat := by omega
  simp [State.evalStage, h, State.evalRamp, this, State.advancePhase, State.setOut]

/-- Advancing the phase, as numbers (R161). -/
theorem advance_toNat (p : Phase) (g : Granule) : (p + g.setWidth 16).toNat = (p.toNat + g.toNat) % 65536 := by
  have := g.isLt
  simp only [BitVec.toNat_add, BitVec.toNat_setWidth]
  omega

end Sys2Proof.Machine
end

