-- ==== Sys2Proof/Laws/Step.lean ====
section
/-! SUPPORT. A step and the placing of a word before it. -/

namespace Sys2Proof.Machine

/-- Every action takes a step where its loop position and flags choose it. -/
theorem exec_chooseAction (i : Instr) (s : State) : ∃ t, exec i (s.chooseAction i) = .next t := by
  cases i with
  | tick => exact ⟨_, rfl⟩
  | env g =>
    simp only [State.chooseAction, exec, execEnv]
    cases h : s.envEnabled
    · simp [State.envEnabled]
    · simp [h]
  | clru =>
    simp only [State.chooseAction, exec, execClru]
    cases h : s.clruEnabled
    · simp [State.clruEnabled]
    · simp [h]
  | samp r v =>
    simp only [State.chooseAction, exec, execSamp]
    cases h : s.sampEnabled
    · simp [State.sampEnabled, State.atSampleCheck]
    · simp [h]
  | loop =>
    simp only [State.chooseAction, exec, execLoop]
    cases h : s.loopEnabled
    · simp [State.loopEnabled, State.atSampleCheck]
    · simp [h]

/-- A word placed by `withFetchWord` is the one the next step runs. -/
theorem step_withFetchWord {s : State} {nbits w : Nat} {i : Instr} (h : decodeTableWord nbits w = some i) :
    step (s.withFetchWord nbits w) = exec i (s.chooseAction i) := by
  have hd : decode (BitVec.ofNat 16 (w % 2 ^ nbits)) = .ok i := by
    unfold decodeTableWord at h
    split at h
    · cases h; assumption
    · cases h
  simp only [State.withFetchWord, h, step, State.fetch, State.pushWord_sched, hd]
  rfl

/-- Placing a word keeps the invariants of R49. -/
theorem chooseAction_inv (i : Instr) {s : State} (h : s.Inv) : (s.chooseAction i).Inv := by
  cases i with
  | tick => exact h
  | env g =>
    simp only [State.chooseAction]
    split
    · exact h
    · exact { h with clru_upd := nofun }
  | clru =>
    simp only [State.chooseAction]
    split
    · exact h
    · exact { h with clru_upd := fun _ => rfl }
  | samp r v =>
    simp only [State.chooseAction]
    split
    · exact h
    · exact { h with started_smp := fun _ => rfl, clru_upd := nofun }
  | loop =>
    simp only [State.chooseAction]
    split
    · exact h
    · exact { h with started_smp := nofun, clru_upd := nofun }

end Sys2Proof.Machine
end

