-- ==== Sys2Proof/Laws/Frame.lean ====
section
/-! SUPPORT. The envelope step neither reads nor writes what is not the engine's, and no action reads or writes the
schedule: each commutes with changing those fields. -/

namespace Sys2Proof.Machine

/-- `s` with every field the engine neither reads nor writes taken from `o`. -/
def setOthers (o s : State) : State :=
  { s with
    ch := o.ch, started := o.started, upd := o.upd, smp := o.smp, cd := o.cd, lpc := o.lpc, duty := o.duty,
    events := o.events, sched := o.sched }

theorem edgeDetect_setOthers (g : Bit) (o s : State) :
    (setOthers o s).edgeDetect g = setOthers o (s.edgeDetect g) := by
  simp only [State.edgeDetect, State.releaseEdge, apply_ite (setOthers o)]
  rfl

theorem evalAttack_setOthers (o s : State) : (setOthers o s).evalAttack = setOthers o s.evalAttack := by
  simp only [State.evalAttack, apply_ite (setOthers o)]
  rfl

theorem evalRamp_setOthers (o s : State) : (setOthers o s).evalRamp = setOthers o s.evalRamp := by
  simp only [State.evalRamp, apply_ite (setOthers o)]
  rfl

theorem evalStage_setOthers (o s : State) : (setOthers o s).evalStage = setOthers o s.evalStage := by
  have h : ∀ x : Stage,
      (match x with
        | .attacking => (setOthers o s).evalAttack
        | .decayRelease => (setOthers o s).evalRamp
        | .idle => setOthers o s) =
      setOthers o (match x with
        | .attacking => s.evalAttack
        | .decayRelease => s.evalRamp
        | .idle => s) := by
    intro x
    cases x
    · rfl
    · exact evalAttack_setOthers o s
    · exact evalRamp_setOthers o s
  exact h s.st

/-- The envelope step commutes with changing what is not the engine's (R48, R150). -/
theorem envStep_setOthers (g : Bit) (o s : State) :
    (setOthers o s).envStep g = setOthers o (s.envStep g) := by
  rw [State.envStep, edgeDetect_setOthers, evalStage_setOthers]
  rfl

/-- An outcome with the schedule of its next state replaced. -/
def withSched (x : List EventWord) :
    Host.Outcome State Fault Refusal → Host.Outcome State Fault Refusal
  | .next t => .next { t with sched := x }
  | .fault r => .fault r
  | .refused r => .refused r

theorem sampleStep_sched (r : Bit) (v : Level) (s : State) (x : List EventWord) :
    ({ s with sched := x } : State).sampleStep r v = { s.sampleStep r v with sched := x } := by
  simp only [State.sampleStep, apply_ite (fun t : State => ({ t with sched := x } : State))]
  rfl

theorem whenEnabled_sched (b : Bool) (t : State) (x : List EventWord) :
    whenEnabled b { t with sched := x } = withSched x (whenEnabled b t) := by
  cases b <;> rfl

/-- No action reads or writes the schedule. -/
theorem exec_sched (i : Instr) (s : State) (x : List EventWord) :
    exec i { s with sched := x } = withSched x (exec i s) := by
  cases i with
  | tick => simp only [exec, execTick_eq, withSched]
  | env g =>
    simp only [exec, execEnv]
    rw [show ({ s with sched := x } : State) = setOthers { s with sched := x } s from rfl, envStep_setOthers,
      ← whenEnabled_sched]
    have : (setOthers { s with sched := x } (s.envStep g)).setLpc .clru =
        { (s.envStep g).setLpc .clru with sched := x } := by
      rw [envStep_frame]
      rfl
    rw [this]
    rfl
  | clru => exact whenEnabled_sched s.clruEnabled (s.clearUpd.setLpc .schk) x
  | samp r v =>
    simp only [exec, execSamp, sampleStep_sched]
    exact whenEnabled_sched s.sampEnabled ((s.sampleStep r v).setLpc .top) x
  | loop => exact whenEnabled_sched s.loopEnabled (s.setLpc .top) x

end Sys2Proof.Machine
end

