-- ==== Sys2Proof/Laws/Items.lean ====
section
/-! SUPPORT. What running a source item can do, and what enables `CYCLE g`. -/

namespace Sys2Proof.Machine

/-- An item goes on only where it is enabled, and then as its actions do. -/
theorem runItem_next {a : AsmItem} {s t : State} :
    runItem a s = .next t ↔ s.itemEnabled a = true ∧ runActions a.expand s = .next t := by
  cases h : s.itemEnabled a <;> simp [runItem, h]

theorem runItem_enabled {a : AsmItem} {s : State} (h : s.itemEnabled a = true) :
    runItem a s = runActions a.expand s := by
  simp [runItem, h]

theorem tickRaisesNoSample_iff {s : State} :
    s.tickRaisesNoSample = true ↔ s.smp = false ∧ s.cd - 1 ≠ 0 := by
  simp [State.tickRaisesNoSample, countdown_eq]

theorem cycleEnabled_iff {s : State} :
    s.cycleEnabled = true ↔ s.lpc = .top ∧ s.upd = false ∧ s.smp = false ∧ s.cd - 1 ≠ 0 := by
  simp only [State.cycleEnabled, Bool.and_eq_true, tickRaisesNoSample_iff]
  simp
  tauto

end Sys2Proof.Machine
end

