-- ==== Sys2Proof/Laws/PerInstr.lean ====
section
/-! SUPPORT. Statements made of every instruction as syntax, one lemma per constructor. -/

/-- The word of an instruction matches the instruction's own row of the opcode table (R83 to R85). -/
def Sys2Proof.Laws.RowMatch.Statement (i : Sys2Proof.Instr) : Prop :=
  Sys2Proof.encode i &&& (Sys2Proof.rowOf i).mask = (Sys2Proof.rowOf i).pattern

theorem Sys2Proof.Laws.RowMatch.tick : Sys2Proof.Laws.RowMatch.Statement .tick := by
  unfold Sys2Proof.Laws.RowMatch.Statement; decide

theorem Sys2Proof.Laws.RowMatch.env (g : Sys2Proof.Bit) : Sys2Proof.Laws.RowMatch.Statement (.env g) := by
  unfold Sys2Proof.Laws.RowMatch.Statement; revert g; decide

theorem Sys2Proof.Laws.RowMatch.clru : Sys2Proof.Laws.RowMatch.Statement .clru := by
  unfold Sys2Proof.Laws.RowMatch.Statement; decide

theorem Sys2Proof.Laws.RowMatch.samp (r : Sys2Proof.Bit) (v : Sys2Proof.Level) :
    Sys2Proof.Laws.RowMatch.Statement (.samp r v) := by
  unfold Sys2Proof.Laws.RowMatch.Statement Sys2Proof.encode Sys2Proof.rowOf
  ext i hi
  simp only [BitVec.getElem_and, BitVec.getElem_or, BitVec.getElem_setWidth]
  interval_cases i <;> simp [BitVec.getLsbD_of_ge]

theorem Sys2Proof.Laws.RowMatch.loop : Sys2Proof.Laws.RowMatch.Statement .loop := by
  unfold Sys2Proof.Laws.RowMatch.Statement; decide
end

