-- ==== Sys2Proof/Tests/Slice0.lean ====
section
/-! SUPPORT. Tests: the checks of WellFormed refuse ill-formed terms, words written out from the encodings of R81 decode
to what they stand for, one step per operation against spec/95_test_vectors.md, and, for each statement with
hypotheses, a state and operands that meet them. -/

namespace Sys2Proof.Tests

open Sys2Proof.Machine

-- ## Small states

/-- Table `TT` of 95_test_vectors.md 2.1. -/
def tableTT : CurveTable := Vector.ofFn fun i => BitVec.ofNat 16 (65535 - 256 * i.val)

/-- Table `T0` of 95_test_vectors.md 2.1. -/
def tableT0 : CurveTable := Vector.ofFn fun i => BitVec.ofNat 16 (65535 - 257 * i.val)

/-- Table `TW` of 95_test_vectors.md 2.1. -/
def tableTW : CurveTable := Vector.ofFn fun i => if i.val = 0 then 65535#16 else 32768#16

/-- `N = 3`, a countdown of two bits. -/
def paramsOf (t : CurveTable) (par : ParamStore) : Params :=
  { sampleInterval := 3, cdWidth := 2, fTick := 40000, paramInit := par, curveTable := t }

/-- The reset state with `PAR` as in W3. -/
def base : State := State.resetWith (paramsOf tableTT #v[0#10, 512#10, 600#10, 1023#10])

/-- An engine state, with `ENV` enabled. -/
def engine (t : CurveTable) (st : Stage) (ph gr dsc tgt out db : Nat) : State :=
  { State.resetWith (paramsOf t base.par) with
    st := st, ph := BitVec.ofNat 16 ph, gr := BitVec.ofNat 8 gr, dsc := BitVec.ofNat 11 dsc
    tgt := BitVec.ofNat 11 tgt, out := BitVec.ofNat 10 out, db := BitVec.ofNat 7 db, upd := true }

/-- The engine's registers, in the order of 95_test_vectors.md 2.7, and `LPC`. -/
def seen (o : Host.Outcome State Fault Refusal) : Option (Stage × List Nat × LoopPos) :=
  match o with
  | .next s =>
    some (s.st, [s.ph.toNat, s.gr.toNat, s.dsc.toNat, s.tgt.toNat, s.out.toNat, s.db.toNat], s.lpc)
  | _ => none

/-- `PAR`, `CH`, then `STARTED`, `UPD`, `SMP`, and `LPC` and the events after a step. -/
def seenSampler (o : Host.Outcome State Fault Refusal) :
    Option (List Nat × List Bool × LoopPos × List HalEvent) :=
  match o with
  | .next s =>
    some (s.par.toList.map BitVec.toNat ++ [s.ch.toNat], [s.started, s.upd, s.smp], s.lpc, s.events)
  | _ => none

/-- Is the outcome the refusal of a reserved word? -/
def refusesWord : Host.Outcome State Fault Refusal → Bool
  | .refused .reservedWord => true
  | _ => false

/-- Does the outcome give a next state? -/
def goesOn : Host.Outcome State Fault Refusal → Bool
  | .next _ => true
  | _ => false

-- ## WellFormed refuses ill-formed terms (R89, R9, R10, R130)

theorem test_wf_env : (AsmItem.env 2).wellFormed = false ∧ (AsmItem.env 1).wellFormed = true := by decide
theorem test_wf_samp_r : (AsmItem.samp 2 0).wellFormed = false := by decide
theorem test_wf_samp_v :
    (AsmItem.samp 1 1024).wellFormed = false ∧ (AsmItem.samp 1 1023).wellFormed = true := by decide
theorem test_wf_done : (AsmItem.done 1024).wellFormed = false := by decide
theorem test_wf_service : (AsmItem.service 2).wellFormed = false := by decide
theorem test_wf_cycle : (AsmItem.cycle 2).wellFormed = false := by decide
theorem tt_legal : tableTT.legal := ⟨by simp [tableTT], fun i => by simp [tableTT]; omega⟩
theorem t0_legal : tableT0.legal :=
  ⟨by simp [tableT0], fun i => by
    simp only [tableT0, Vector.getElem_ofFn, BitVec.toNat_ofNat]
    rw [Nat.mod_eq_of_lt (by omega), Nat.mod_eq_of_lt (by omega)]
    omega⟩
theorem tw_legal : tableTW.legal := ⟨by simp [tableTW], fun i => by simp [tableTW]; split <;> simp⟩
theorem test_wf_table_first : ¬ CurveTable.legal (Vector.replicate 256 65534#16) :=
  fun h => absurd h.1 (by simp)
theorem test_wf_table_rises : ¬ CurveTable.legal (tableTT.set 255 65535#16) :=
  fun h => absurd (h.2 ⟨254, by decide⟩) (by simp [tableTT])
theorem test_wf_interval : ¬ ({ paramsOf tableTT base.par with sampleInterval := 0 } : Params).legal :=
  fun h => absurd h.1 (by decide)
theorem test_wf_width : ¬ ({ paramsOf tableTT base.par with cdWidth := 1 } : Params).legal :=
  fun h => absurd h.2.1 (by decide)

-- ## Decoding (the fields of R81 written out bit by bit: op, then the operand bits)

theorem test_decode_tick : decode 0b001_0000000000000#16 = .ok .tick := by decide
theorem test_decode_env :
    decode 0b010_000000000000_0#16 = .ok (.env 0#1) ∧ decode 0b010_000000000000_1#16 = .ok (.env 1#1) := by
  decide
theorem test_decode_clru : decode 0b011_0000000000000#16 = .ok .clru := by decide
theorem test_decode_samp :
    decode 0b100_00_1_1010111100#16 = .ok (.samp 1#1 700#10) ∧
    decode 0b100_00_0_1111111111#16 = .ok (.samp 0#1 1023#10) := by decide
theorem test_decode_loop : decode 0b101_0000000000000#16 = .ok .loop := by decide
theorem test_decode_reserved :
    ([0x0000#16, 0x1FFF#16, 0x2001#16, 0x4002#16, 0x5000#16, 0x6001#16, 0x7FFF#16, 0x8800#16,
      0x9000#16, 0xA100#16, 0xC000#16, 0xE000#16, 0xFFFF#16].all
        fun w => decide (decode w = .error .reservedWord)) = true := by decide
theorem test_decode_table_word :
    decodeTableWord 16 0x86BC = some (.samp 1#1 700#10) ∧ decodeTableWord 16 0xC000 = none := by decide

/-- Each operation's word runs as the very next step after `State.reset`. -/
theorem test_first_step_after_reset :
    ∀ w ∈ [0x2000, 0x4000, 0x4001, 0x6000, 0x8000, 0x87FF, 0xA000],
      goesOn (step (State.reset.withFetchWord 16 w)) = true := by decide

-- ## One step per operation (spec/95_test_vectors.md)

/-- T1. -/
theorem test_tick_counts :
    exec .tick { base with out := 512#10 } =
      .next { base with
        out := 512#10, duty := some 512#10, events := [.duty 512#10], upd := true, cd := 2 } := rfl

/-- T2. -/
theorem test_tick_sample_due :
    exec .tick { base with out := 7#10, cd := 1 } =
      .next { base with
        out := 7#10, duty := some 7#10, events := [.duty 7#10], upd := true, smp := true, cd := 3 } :=
  rfl

/-- E8: the attack threshold, met exactly. -/
theorem test_env_threshold :
    seen (exec (.env 0#1) (engine tableTT .attacking 55869 255 1200 1200 1022 1)) =
      some (.decayRelease, [0, 127, 423, 600, 1023, 1], .clru) := by decide +kernel

/-- E10: the attack's phase wraps under `TW`. -/
theorem test_env_wrap :
    seen (exec (.env 0#1) (engine tableTW .attacking 65408 128 1200 1200 800 1)) =
      some (.attacking, [0, 128, 1200, 1200, 902, 1], .clru) := by decide +kernel

/-- K1. -/
theorem test_clru_keeps_sample_due :
    exec .clru { base with lpc := .clru, upd := true, smp := true } =
      .next { base with lpc := .schk, smp := true } := rfl

/-- K6. -/
theorem test_clru_not_enabled : exec .clru base = .fault .notEnabled := rfl

/-- K5. -/
theorem test_loop_keeps_update_due :
    exec .loop { base with lpc := .schk, upd := true } = .next { base with upd := true } := rfl

/-- K7. -/
theorem test_loop_not_enabled : exec .loop { base with upd := true } = .fault .notEnabled := rfl

/-- S2: a start reads neither `r` nor `v`. -/
theorem test_samp_start :
    seenSampler (exec (.samp 1#1 999#10) { base with smp := true, ch := 3#2 }) =
      some ([0, 512, 600, 1023, 3], [true, false, true], .top, [.start 3#2]) := by decide +kernel

/-- S4: a collection from channel 3. -/
theorem test_samp_collect :
    seenSampler (exec (.samp 1#1 700#10)
        { base with lpc := .schk, upd := true, smp := true, started := true, ch := 3#2 }) =
      some ([0, 512, 600, 700, 0], [false, true, false], .top, []) := by decide +kernel

/-- Two columns of 95_test_vectors.md 2.2 and 2.3: the last segment of `TT`, and the granule's clamp. -/
theorem test_curve_and_granule :
    curveValue tableTT 0xFF80#16 = 126 ∧ curveValue tableTW 0x0001#16 = 65279 ∧
    granule tableTT 100#10 = 230#8 ∧ granule tableTT 1020#10 = 1#8 := by decide +kernel

-- ## Invariant states the witnesses start from

theorem base_params_legal : base.params.legal := ⟨by decide, by decide, tt_legal⟩

/-- The invariant of an engine state from its parts. -/
theorem engine_inv {t : CurveTable} (ht : t.legal) (st : Stage) (ph gr dsc tgt out db : Nat)
    (hg : 1 ≤ gr % 256) (hd : db % 128 ≤ 100)
    (ha : st = .attacking → dsc % 2048 = 1200 ∧ tgt % 2048 = 1200 ∧ 1 ≤ db % 128)
    (hr : st = .decayRelease → 1 ≤ db % 128 → tgt % 2048 + dsc % 2048 = 1023)
    (hz : st = .decayRelease → db % 128 = 0 →
      tgt % 2048 = 0 ∧ 1 ≤ dsc % 2048 ∧ dsc % 2048 ≤ 1023) :
    (engine t st ph gr dsc tgt out db).Inv where
  params_legal := ⟨Nat.le_add_left 1 2, Nat.lt_succ_self 3, ht⟩
  out_le := Nat.le_of_lt_succ (BitVec.isLt _)
  gr_pos := by simpa [engine] using hg
  db_le := by simpa [engine] using hd
  cd_pos := Nat.le_add_left 1 2
  cd_le := Nat.le_refl 3
  attack := by simpa [engine] using ha
  decay := by simpa [engine] using hr
  release h e := hz h (by simpa [engine] using congrArg BitVec.toNat e)
  started_smp := nofun
  clru_upd := nofun

/-- An attack below its threshold. -/
def attackState : State := engine tableTT .attacking 55868 1 1200 1200 1022 1
/-- An attack at its threshold. -/
def thresholdState : State := engine tableTT .attacking 55869 255 1200 1200 1022 1
/-- A decay-to-sustain ramp. -/
def decayState : State := engine tableTT .decayRelease 1000 10 423 600 1010 1
/-- A release ramp one phase before its last step. -/
def releaseState : State := engine tableTT .decayRelease 65279 255 1023 0 5 0
/-- A release ramp at its last step. -/
def releaseEndState : State := engine tableTT .decayRelease 65280 255 1023 0 5 0

theorem attack_inv : attackState.Inv :=
  engine_inv tt_legal _ _ _ _ _ _ _ (by decide) (by decide) (by decide) (by decide) (by decide)
theorem threshold_inv : thresholdState.Inv :=
  engine_inv tt_legal _ _ _ _ _ _ _ (by decide) (by decide) (by decide) (by decide) (by decide)
theorem decay_inv : decayState.Inv :=
  engine_inv tt_legal _ _ _ _ _ _ _ (by decide) (by decide) (by decide) (by decide) (by decide)
theorem release_inv : releaseState.Inv :=
  engine_inv tt_legal _ _ _ _ _ _ _ (by decide) (by decide) (by decide) (by decide) (by decide)
theorem releaseEnd_inv : releaseEndState.Inv :=
  engine_inv tt_legal _ _ _ _ _ _ _ (by decide) (by decide) (by decide) (by decide) (by decide)

-- ## Witnesses: the hypotheses of each statement can be met together

theorem witness_EncodeOfDecode : ∃ w i, decode w = .ok i := ⟨0x87FF#16, .samp 1#1 1023#10, by decide⟩

theorem witness_DecodeAgreesWithOpcodeRows :
    (∃ w, decode w = .error .reservedWord) ∧ ∃ w i, decode w = .ok i :=
  ⟨⟨0xC000#16, by decide⟩, 0x4001#16, .env 1#1, by decide⟩

/-- A word at each boundary of the reserved ranges, and one just outside them. -/
theorem witness_StepRefusesExactlyReservedWords :
    ([0x1FFF#16, 0xC000#16, 0x2001#16, 0x6001#16, 0xA001#16, 0x4002#16, 0x8800#16].all
      fun w => refusesWord (step { base with sched := [w] })) = true ∧
    goesOn (step { base with smp := true, sched := [0x87FF#16] }) = true := by decide +kernel

theorem witness_PseudoInstructionsAssemble :
    (AsmItem.done 1023).assemble = some [0x87FF#16] ∧ (AsmItem.done 1024).assemble = none ∧
    (AsmItem.cycle 1).assemble = some [0x2000#16, 0x4001#16, 0x6000#16, 0xA000#16] ∧
    (AsmItem.env 2).assemble = none ∧ (AsmItem.samp 2 0).assemble = none ∧
    (AsmItem.samp 1 1024).assemble = none ∧ (AsmItem.samp 1 1023).assemble = some [0x87FF#16] := by decide

theorem witness_StepRunsDecodedWord :
    ∃ (s : State) (w : EventWord) (rest : List EventWord) (i : Instr),
      s.sched = w :: rest ∧ decode w = .ok i :=
  ⟨{ base with sched := [0x2000#16] }, _, _, .tick, rfl, by decide⟩

theorem witness_CycleServicesOneTick :
    ∃ (s : State) (g : Bit) (rest : List EventWord),
      s.lpc = .top ∧ s.upd = false ∧ s.smp = false ∧ 2 ≤ s.cd ∧
      s.sched = 0x2000#16 :: (0x4000#16 ||| g.setWidth 16) :: 0x6000#16 :: 0xA000#16 :: rest :=
  ⟨{ base with cd := 2, sched := [0x2000#16, 0x4001#16, 0x6000#16, 0xA000#16] }, 1#1, [], rfl, rfl, rfl,
    by decide, by decide +kernel⟩

/-- R90's four conditions on `CYCLE g`, each failing alone, and all met. -/
theorem test_cycle_enabled :
    base.itemEnabled (.cycle 0) = true ∧
    ({ base with upd := true } : State).itemEnabled (.cycle 0) = false ∧
    ({ base with smp := true } : State).itemEnabled (.cycle 0) = false ∧
    ({ base with lpc := .schk } : State).itemEnabled (.cycle 0) = false ∧
    ({ base with cd := 1 } : State).itemEnabled (.cycle 0) = false := by decide

/-- Enabled with the least countdown that allows it, and not enabled with the next one down. -/
theorem witness_CycleEnabledOnlyWhereStated :
    (∃ (g : Nat) (s : State), (AsmItem.cycle g).wellFormed = true ∧ s.cd = 2 ∧
      s.itemEnabled (.cycle g) = true) ∧
    ∃ (g : Nat) (s : State), (AsmItem.cycle g).wellFormed = true ∧ s.cd = 1 ∧
      s.itemEnabled (.cycle g) = false :=
  ⟨⟨1, { base with cd := 2 }, by decide, rfl, by decide⟩, 1, { base with cd := 1 }, by decide, rfl, by decide⟩

theorem witness_EnabledItemsRunToTheirEnd :
    ∃ (a : AsmItem) (s : State), a.wellFormed = true ∧ s.itemEnabled a = true :=
  ⟨.service 1, decayState, by decide, by decide⟩

theorem witness_SamplerItemsTakeTheirBranch :
    (∃ s : State, s.itemEnabled .start = true) ∧ (∃ s : State, s.itemEnabled .poll = true) ∧
    ∃ (s : State) (v : Nat), (AsmItem.done v).wellFormed = true ∧ s.itemEnabled (.done v) = true ∧ v = 1023 :=
  ⟨⟨{ base with smp := true }, by decide⟩, ⟨{ base with smp := true, started := true }, by decide⟩,
    { base with smp := true, started := true }, 1023, by decide, by decide, rfl⟩

/-- The consumer word that R110's table chooses, with the gate released and the converter not ready. -/
def chosen (s : State) : Instr :=
  match s.lpc, s.upd, s.smp with
  | .clru, _, _ => .clru
  | .top, true, _ => .env 1#1
  | _, _, true => .samp 0#1 0#10
  | _, _, false => .loop

theorem chosen_steps (s : State) : ∃ t, exec (chosen s) s = .next t := by
  cases hl : s.lpc <;> cases hu : s.upd <;> cases hs : s.smp <;>
    simp [chosen, hl, hu, hs, exec, execEnv, execClru, execSamp, execLoop, State.envEnabled, State.clruEnabled,
      State.sampEnabled, State.loopEnabled, State.atSampleCheck]

theorem chosen_ne_tick (s : State) : chosen s ≠ .tick := by
  unfold chosen; split <;> nofun

/-- A tick at each even place, the chosen consumer word at each odd one. -/
def fairWord (n : Nat) (s : State) : Instr := if n % 2 = 0 then .tick else chosen s

/-- The states of the run of `fairWord` from `s`. -/
def fairState (s : State) : Nat → State
  | 0 => s
  | n + 1 =>
    match exec (fairWord n (fairState s n)) (fairState s n) with
    | .next t => t
    | _ => fairState s n

theorem chosen_ne_asserted (s : State) : chosen s ≠ .env 0#1 := by
  unfold chosen; split <;> simp

theorem fair_run (s : State) : InfiniteRun s (fun n => fairWord n (fairState s n)) (fairState s) where
  start := rfl
  next n := by
    have h : ∃ t, exec (fairWord n (fairState s n)) (fairState s n) = .next t := by
      unfold fairWord; split
      · exact ⟨_, rfl⟩
      · exact chosen_steps _
    obtain ⟨t, ht⟩ := h
    simp only [fairState, ht]

theorem fair_fair (s : State) : Fair (fun n => fairWord n (fairState s n)) (fairState s) where
  producer n := ⟨2 * n, by omega, by simp [fairWord]⟩
  consumer n _ := ⟨2 * n + 1, by omega, by
    have : ¬ (2 * n + 1) % 2 = 0 := by omega
    simpa [fairWord, this] using chosen_ne_tick _⟩

/-- Both sides occur: a reachable state, and a fair infinite run from a reset state. -/
theorem witness_ReachableIffOnFairInfiniteRun :
    (∃ p s, Reachable p s) ∧ ∃ p act st, InfiniteRun (State.resetWith p) act st ∧ Fair act st :=
  ⟨⟨base.params, _, .reset⟩, base.params, _, _, fair_run _, fair_fair _⟩

theorem witness_MachineRunsStretchesOfInfiniteRuns :
    ∃ (s : State) (act : Nat → Instr) (st : Nat → State), InfiniteRun s act st := ⟨base, _, _, fair_run _⟩

theorem witness_FairRunsServiceUpdates :
    ∃ (s : State) (act : Nat → Instr) (st : Nat → State), InfiniteRun s act st ∧ Fair act st ∧
      (st 1).upd = true := ⟨base, _, _, fair_run _, fair_fair _, rfl⟩

theorem witness_FairRunsCompleteReleases :
    ∃ (s : State) (act : Nat → Instr) (st : Nat → State), InfiniteRun s act st ∧ Fair act st ∧
      s.st = .decayRelease ∧ s.db = 0#7 ∧ 1 ≤ s.gr.toNat ∧ ∀ m, act m ≠ .env 0#1 :=
  ⟨releaseState, _, _, fair_run _, fair_fair _, rfl, rfl, by decide, fun m => by
    unfold fairWord; split
    · nofun
    · exact chosen_ne_asserted _⟩

theorem witness_ResetMeetsInvariants : ∃ p : Params, p.legal := ⟨base.params, base_params_legal⟩

theorem witness_StepKeepsInvariants : ∃ s t : State, s.Inv ∧ step s = .next t :=
  ⟨{ decayState with sched := [0x4000#16] }, _, { decay_inv with }, rfl⟩

theorem witness_ReachableStatesMeetInvariants :
    ∃ (p : Params) (s : State), p.legal ∧ Reachable p s ∧ s.upd = true :=
  ⟨base.params, _, base_params_legal, .action .tick .reset rfl, rfl⟩

theorem witness_TickEffect :
    (∃ s : State, 1 ≤ s.cd ∧ s.cd = 1) ∧ ∃ s : State, 1 ≤ s.cd ∧ s.cd = 2 :=
  ⟨⟨{ base with cd := 1 }, by decide, rfl⟩, { base with cd := 2 }, by decide, rfl⟩

theorem witness_TickAlwaysEnabled : ∃ s : State, s.smp = true := ⟨{ base with smp := true }, rfl⟩

theorem witness_SampleDueEveryInterval :
    ∃ (n : Nat) (s : State), 1 ≤ s.params.sampleInterval ∧ s.cd = s.params.sampleInterval ∧
      s.params.sampleInterval ∣ n + 1 := ⟨5, base, by decide, rfl, by decide⟩

theorem witness_OneDutyEventPerTick :
    ∃ (acts : List Instr) (s t : State), runActions acts s = .next t ∧ acts.count .tick = 2 :=
  ⟨[.tick, .tick, .env 1#1], base, _, rfl, by decide⟩

theorem witness_ClruEffect : (∃ s : State, s.lpc = .clru) ∧ ∃ s : State, s.lpc ≠ .clru :=
  ⟨⟨{ base with lpc := .clru, upd := true }, rfl⟩, { base with lpc := .schk }, by decide⟩

theorem witness_LoopEffect :
    (∃ s : State, s.lpc = .top ∧ s.upd = false ∧ s.smp = false) ∧
    (∃ s : State, s.lpc = .schk ∧ s.smp = false) ∧
    ∃ s : State, ¬((s.lpc = .top ∧ s.upd = false ∧ s.smp = false) ∨ (s.lpc = .schk ∧ s.smp = false)) :=
  ⟨⟨base, rfl, rfl, rfl⟩, ⟨{ base with lpc := .schk }, rfl, rfl⟩, { base with lpc := .schk, smp := true },
    by decide⟩

/-- Each consumer operation is the enabled one somewhere. -/
theorem witness_ExactlyOneConsumerOperationEnabled :
    goesOn (exec (.env 0#1) { base with upd := true }) = true ∧
    goesOn (exec .clru { base with lpc := .clru }) = true ∧
    goesOn (exec (.samp 0#1 0#10) { base with smp := true }) = true ∧
    goesOn (exec .loop base) = true ∧
    goesOn (exec (.samp 0#1 0#10) { base with upd := true, smp := true }) = false := by decide +kernel

theorem witness_SampleDueSurvivesUpdateClear : ∃ s : State, s.lpc = .clru ∧ s.cd = 1 :=
  ⟨{ base with lpc := .clru, upd := true, cd := 1 }, rfl, rfl⟩

theorem witness_OnlyTheListedActionWrites :
    ∃ (s t : State) (v : Level), exec (.samp 1#1 v) s = .next t ∧ t.par ≠ s.par ∧ t.ch ≠ s.ch :=
  ⟨{ base with smp := true, started := true }, _, 5#10, rfl, by decide +kernel, by decide +kernel⟩

theorem witness_CurveNeverRises :
    ∃ (tbl : CurveTable) (p q : Phase), tbl.legal ∧ p.toNat ≤ q.toNat :=
  ⟨tableTT, 0xFEFF#16, 0xFFFF#16, tt_legal, by decide⟩

theorem witness_CurveWithinSegment :
    ∃ (tbl : CurveTable) (i f : Nat), tbl.legal ∧ i < 255 ∧ f < 256 :=
  ⟨tableTT, 254, 255, tt_legal, by decide, by decide⟩

theorem witness_CurveBoundaryStep :
    ∃ (tbl : CurveTable) (i f : Nat), i < 255 ∧ tbl.legal ∧ f < 255 :=
  ⟨tableTW, 254, 254, by decide, tw_legal, by decide⟩

theorem witness_GranuleProperties :
    ∃ (tbl : CurveTable) (q r : Level) (i : Nat), tbl.legal ∧ i < 256 ∧ q.toNat / 4 = i ∧
      q.toNat ≤ r.toNat ∧ q.toNat / 4 = r.toNat / 4 ∧ q.toNat < 4 :=
  ⟨tableTT, 0#10, 3#10, 0, tt_legal, by decide, by decide, by decide, by decide, by decide⟩

theorem witness_EnvCompletesWithinEngine : ∃ s : State, s.lpc = .top ∧ s.upd = true :=
  ⟨attackState, rfl, rfl⟩

theorem witness_EnvIdleHolds :
    (∃ s : State, s.lpc = .top ∧ s.upd = true ∧ s.st = .idle ∧ 1 < s.db.toNat) ∧
    (∃ s : State, s.lpc = .top ∧ s.upd = true ∧ s.st = .idle ∧ s.db = 1#7) ∧
    ∃ s : State, s.lpc = .top ∧ s.upd = true ∧ s.st = .idle ∧ s.db = 0#7 :=
  ⟨⟨engine tableTT .idle 0 127 423 600 600 2, rfl, rfl, rfl, by decide⟩,
    ⟨engine tableTT .idle 0 127 423 600 600 1, rfl, rfl, rfl, rfl⟩, engine tableTT .idle 0 1 0 0 0 0, rfl, rfl, rfl, rfl⟩

theorem witness_EnvAssertionEdge :
    ∃ s : State, s.params.legal ∧ s.lpc = .top ∧ s.upd = true ∧ s.db = 0#7 ∧ s.st = .decayRelease :=
  ⟨releaseState, base_params_legal, rfl, rfl, rfl, rfl⟩

theorem witness_AssertionDropsOutput :
    ∃ s t : State, s.params.legal ∧ s.db = 0#7 ∧ exec (.env 0#1) s = .next t :=
  ⟨releaseState, _, base_params_legal, rfl, rfl⟩

theorem witness_EnvReleaseAtZero :
    ∃ s : State, s.lpc = .top ∧ s.upd = true ∧ s.db = 1#7 ∧ s.out = 0#10 :=
  ⟨engine tableTT .attacking 100 1 1200 1200 0 1, rfl, rfl, rfl, rfl⟩

theorem witness_EnvReleaseRamp :
    ∃ s : State, s.lpc = .top ∧ s.upd = true ∧ s.db = 1#7 ∧ s.out ≠ 0#10 :=
  ⟨decayState, rfl, rfl, rfl, by decide⟩

theorem witness_ReleaseStartsBelowOutput :
    ∃ s t : State, s.db = 1#7 ∧ s.out ≠ 0#10 ∧ exec (.env 1#1) s = .next t :=
  ⟨engine tableTT .decayRelease 0 255 1023 0 1 1, _, rfl, by decide, rfl⟩

theorem witness_EnvAttackAdvances :
    ∃ (g : Bit) (s : State), s.lpc = .top ∧ s.upd = true ∧ s.st = .attacking ∧ s.noEdge g ∧
      (65535 - curveValue s.params.curveTable s.ph) * s.dsc.toNat / 65536 < 1023 :=
  ⟨0#1, attackState, rfl, rfl, rfl, .inr (.inl ⟨rfl, rfl⟩), by decide +kernel⟩

/-- The threshold met exactly, the value being 1023, and the same `DSC` one phase below it. -/
theorem witness_EnvAttackThreshold :
    (∃ (g : Bit) (s : State), s.lpc = .top ∧ s.upd = true ∧ s.st = .attacking ∧ s.noEdge g ∧
      1023 = (65535 - curveValue s.params.curveTable s.ph) * s.dsc.toNat / 65536) ∧
    (∃ s : State, s.dsc = 1200#11 ∧ curveValue s.params.curveTable s.ph = 9665) ∧
    ∃ s : State, s.dsc = 1200#11 ∧ curveValue s.params.curveTable s.ph = 9666 :=
  ⟨⟨0#1, thresholdState, rfl, rfl, rfl, .inr (.inl ⟨rfl, rfl⟩), by decide +kernel⟩,
    ⟨thresholdState, rfl, by decide +kernel⟩, attackState, rfl, by decide +kernel⟩

/-- Room for exactly one granule (the ramp ends), one phase more (it goes on), and both kinds of ramp. -/
theorem witness_EnvRampStep :
    (∃ (g : Bit) (s : State), s.lpc = .top ∧ s.upd = true ∧ s.st = .decayRelease ∧ s.noEdge g ∧ s.Inv ∧
      s.db = 0#7 ∧ 65535 - s.ph.toNat = s.gr.toNat) ∧
    (∃ (g : Bit) (s : State), s.lpc = .top ∧ s.upd = true ∧ s.st = .decayRelease ∧ s.noEdge g ∧ s.Inv ∧
      s.db = 0#7 ∧ 65535 - s.ph.toNat = s.gr.toNat + 1) ∧
    ∃ (g : Bit) (s : State), s.lpc = .top ∧ s.upd = true ∧ s.st = .decayRelease ∧ s.noEdge g ∧ s.Inv ∧
      s.db ≠ 0#7 :=
  ⟨⟨1#1, releaseEndState, rfl, rfl, rfl, .inr (.inr ⟨rfl, rfl⟩), releaseEnd_inv, rfl, by decide⟩,
    ⟨1#1, releaseState, rfl, rfl, rfl, .inr (.inr ⟨rfl, rfl⟩), release_inv, rfl, by decide⟩,
    0#1, decayState, rfl, rfl, rfl, .inr (.inl ⟨rfl, rfl⟩), decay_inv, by decide⟩

/-- A decay ramp with the gate held and a release ramp with the gate released, each with a second step. -/
theorem witness_RampNeverRises :
    ∀ p ∈ [(0#1, decayState), (1#1, releaseState)],
      p.2.Inv ∧ p.2.st = .decayRelease ∧ ((p.2.db = 0#7 ∧ p.1 = 1#1) ∨ (p.2.db ≠ 0#7 ∧ p.1 = 0#1)) ∧
      ∃ t u x : State, exec (.env p.1) p.2 = .next t ∧
        u = { t with lpc := .top } ∧ exec (.env p.1) u = .next x := by
  have h : ∀ g s, s.lpc = .top → s.upd = true → ∃ t u x : State, exec (.env g) s = .next t ∧
      u = { t with lpc := .top } ∧ exec (.env g) u = .next x := by
    intro g s hl hu
    refine ⟨(s.envStep g).setLpc .clru, _, _, execEnv_next.2 ⟨hl, hu, rfl⟩, rfl, execEnv_next.2 ⟨rfl, ?_, rfl⟩⟩
    simpa using hu
  intro p hp
  simp only [List.mem_cons, List.not_mem_nil, or_false] at hp
  rcases hp with rfl | rfl
  · exact ⟨decay_inv, rfl, .inr ⟨by decide, rfl⟩, h _ _ rfl rfl⟩
  · exact ⟨release_inv, rfl, .inl ⟨rfl, rfl⟩, h _ _ rfl rfl⟩

theorem witness_RampEndsAfterCeilSteps :
    ∃ (g : Bit) (s : State), s.st = .decayRelease ∧ s.ph = 0#16 ∧ s.gr = 1#8 ∧ s.db = 0#7 ∧ g = 1#1 :=
  ⟨1#1, engine tableTT .decayRelease 0 1 1023 0 1023 0, rfl, rfl, rfl, rfl, rfl⟩

/-- The last step of a release under `T0`. -/
def settlingState : State := engine tableT0 .decayRelease 65280 255 1023 0 5 0

theorem settling_inv : settlingState.Inv :=
  engine_inv t0_legal _ _ _ _ _ _ _ (by decide) (by decide) (by decide) (by decide) (by decide)

theorem witness_ReleaseSettlesAtZero :
    ∃ s t : State, s.Inv ∧ s.st = .decayRelease ∧ s.db = 0#7 ∧ s.params.curveTable[255].toNat ≤ 64 ∧
      exec (.env 1#1) s = .next t ∧ t.st = .idle :=
  ⟨settlingState, (settlingState.envStep 1#1).setLpc .clru, settling_inv, rfl, rfl, by decide +kernel,
    execEnv_next.2 ⟨rfl, rfl, rfl⟩, by decide +kernel⟩

theorem witness_OnlyAssertionEntersAttack :
    ∃ (i : Instr) (s t : State), exec i s = .next t ∧ t.st = .attacking ∧ s.st ≠ .attacking :=
  ⟨.env 0#1, { base with upd := true }, _, rfl, by decide +kernel, by decide⟩

theorem witness_NoRetriggerWithoutRelease :
    ∃ (acts : List Instr) (s t : State), s.st ≠ .attacking ∧ s.db ≠ 0#7 ∧ Instr.env 1#1 ∉ acts ∧
      runActions acts s = .next t ∧ acts ≠ [] :=
  ⟨[.tick, .env 0#1, .clru], decayState, _, by decide, by decide, by decide, rfl, by decide⟩

theorem witness_DebounceCountsEnvelopeSteps :
    ∃ (acts : List Instr) (s t : State), s.db = 100#7 ∧ runActions acts s = .next t ∧
      acts.countP isEnv ≤ 99 ∧ acts.countP isEnv = 1 :=
  ⟨[.env 1#1], engine tableTT .attacking 0 255 1200 1200 0 100, _, rfl,
    runActions_cons_next.2 ⟨_, execEnv_next.2 ⟨rfl, rfl, rfl⟩, rfl⟩, by decide, by decide⟩

theorem witness_AttackEndsForFallingTable :
    ∃ (s : State) (gs : List Bit), s.Inv ∧ s.st = .attacking ∧ s.params.curveTable[255].toNat ≤ 9665 ∧
      gs.length = 65536 :=
  ⟨attackState, List.replicate 65536 0#1, attack_inv, rfl, by decide +kernel, List.length_replicate⟩

theorem witness_ParametersLatchedAtStageEntry :
    (∃ (g : Bit) (s : State), s.lpc = .top ∧ s.upd = true ∧ s.noEdge g ∧ s.st = .attacking ∧
      (65535 - curveValue s.params.curveTable s.ph) * s.dsc.toNat / 65536 < 1023) ∧
    ∃ (g : Bit) (s : State), s.lpc = .top ∧ s.upd = true ∧ s.noEdge g ∧ s.st ≠ .attacking :=
  ⟨⟨0#1, attackState, rfl, rfl, .inr (.inl ⟨rfl, rfl⟩), rfl, by decide +kernel⟩,
    0#1, decayState, rfl, rfl, .inr (.inl ⟨rfl, rfl⟩), by decide⟩

theorem witness_SampStarts :
    (∃ s : State, s.smp = true ∧ s.lpc = .schk ∧ s.started = false) ∧
    ∃ s : State, s.smp = true ∧ (s.lpc = .top ∧ s.upd = false) ∧ s.started = false :=
  ⟨⟨{ base with smp := true, lpc := .schk }, rfl, rfl, rfl⟩, { base with smp := true }, rfl, ⟨rfl, rfl⟩, rfl⟩

theorem witness_SampPolls :
    (∃ s : State, s.smp = true ∧ s.lpc = .schk ∧ s.started = true ∧ s.ch = 3#2) ∧
    ∃ s : State, s.smp = true ∧ (s.lpc = .top ∧ s.upd = false) ∧ s.started = true :=
  ⟨⟨{ base with smp := true, lpc := .schk, started := true, ch := 3#2 }, rfl, rfl, rfl, rfl⟩,
    { base with smp := true, started := true }, rfl, ⟨rfl, rfl⟩, rfl⟩

/-- A collection is always followed by a state from which the next one can be run. -/
theorem witness_FourCollectionsRefreshAll :
    ∃ s₀ s₁ s₂ s₃ t₀ t₁ t₂ t₃ : State,
      s₀.started = true ∧ s₁.started = true ∧ s₂.started = true ∧ s₃.started = true ∧
      exec (.samp 1#1 1#10) s₀ = .next t₀ ∧ s₁.par = t₀.par ∧ s₁.ch = t₀.ch ∧
      exec (.samp 1#1 2#10) s₁ = .next t₁ ∧ s₂.par = t₁.par ∧ s₂.ch = t₁.ch ∧
      exec (.samp 1#1 3#10) s₂ = .next t₂ ∧ s₃.par = t₂.par ∧ s₃.ch = t₂.ch ∧
      exec (.samp 1#1 4#10) s₃ = .next t₃ := by
  have h : ∀ (v : Level) (s : State), s.smp = true → s.lpc = .schk →
      ∃ t, exec (.samp 1#1 v) s = .next t := fun v s hs hl => ⟨_, execSamp_next.2 ⟨⟨hs, .inl hl⟩, rfl⟩⟩
  have at' : ∀ t : State, ∃ s : State, s.smp = true ∧ s.lpc = .schk ∧ s.started = true ∧
      s.par = t.par ∧ s.ch = t.ch := fun t =>
    ⟨{ t with smp := true, lpc := .schk, started := true }, rfl, rfl, rfl, rfl, rfl⟩
  obtain ⟨s₀, a₀, b₀, c₀, -, -⟩ := at' base
  obtain ⟨t₀, e₀⟩ := h 1#10 s₀ a₀ b₀
  obtain ⟨s₁, a₁, b₁, c₁, p₁, q₁⟩ := at' t₀
  obtain ⟨t₁, e₁⟩ := h 2#10 s₁ a₁ b₁
  obtain ⟨s₂, a₂, b₂, c₂, p₂, q₂⟩ := at' t₁
  obtain ⟨t₂, e₂⟩ := h 3#10 s₂ a₂ b₂
  obtain ⟨s₃, a₃, b₃, c₃, p₃, q₃⟩ := at' t₂
  obtain ⟨t₃, e₃⟩ := h 4#10 s₃ a₃ b₃
  exact ⟨s₀, s₁, s₂, s₃, t₀, t₁, t₂, t₃, c₀, c₁, c₂, c₃, e₀, p₁, q₁, e₁, p₂, q₂, e₂, p₃, q₃, e₃⟩

theorem witness_StalledConverterKeepsParameters :
    ∃ (acts : List Instr) (s t : State), (∀ i ∈ acts, isReadySamp i = false) ∧
      runActions acts s = .next t ∧ s.started = true ∧ s.smp = true :=
  ⟨[.samp 0#1 5#10, .tick, .env 1#1], { base with smp := true, started := true }, _, by decide, rfl, rfl, rfl⟩

end Sys2Proof.Tests
end

section
/-! The effects of TICK, CLRU and LOOP (spec/40_dispatch_loop.md R100, R112, R113). -/

namespace Sys2Proof.Machine

/-- A consumer action that is not enabled has no step (R115). -/
theorem whenEnabled_of_not {b : Bool} (t : State) (h : ¬ b = true) :
    whenEnabled b t = .fault .notEnabled :=
  if_neg h

/-- A countdown within R49's range reaches 0 on the tick that finds it at 1 (R101). -/
theorem cd_sub_one_eq_zero_iff {s : State} (h : 1 ≤ s.cd) : s.cd - 1 = 0 ↔ s.cd = 1 := by omega

/-- CLRU's stop, beside its step in `execClru_next` (R112, R115). -/
theorem execClru_fault {s : State} (h : s.lpc ≠ .clru) : execClru s = .fault .notEnabled :=
  whenEnabled_of_not _ (mt clruEnabled_iff.1 h)

/-- `loopEnabled_iff` in the order in which R113 lists the two places. -/
theorem loopEnabled_iff_top_or_schk {s : State} :
    s.loopEnabled = true ↔
      (s.lpc = .top ∧ s.upd = false ∧ s.smp = false) ∨ (s.lpc = .schk ∧ s.smp = false) := by
  rw [loopEnabled_iff]
  tauto

/-- Settles O17: the tick as one record (`execTick_eq`), where a countdown of at least 1 reaches 0 exactly from 1. -/
theorem tickEffect : Obligations.TickEffect := by
  refine ⟨rfl, fun s h => ?_⟩
  simp only [exec, execTick_eq, cd_sub_one_eq_zero_iff h]

/-- Settles O21: CLRU's step and its stop, by the loop position that enables it. -/
theorem clruEffect : Obligations.ClruEffect :=
  ⟨rfl, fun _ => ⟨fun h => execClru_next.2 ⟨h, rfl⟩, execClru_fault⟩⟩

/-- Settles O22: LOOP's step where R113 enables it, and its stop everywhere else. -/
theorem loopEffect : Obligations.LoopEffect := by
  refine ⟨rfl, fun s => ⟨fun h => ?_, fun h => ?_⟩⟩
  · exact whenEnabled_next.2 ⟨loopEnabled_iff_top_or_schk.2 h, rfl⟩
  · exact whenEnabled_of_not _ (mt loopEnabled_iff_top_or_schk.1 h)

end Sys2Proof.Machine
end

section
/-! The edges of the envelope step (spec/42_envelope.md R153, R155, R156): each edge fixes the stage that phase 2
evaluates, at phase 0. -/

namespace Sys2Proof.Machine

/-- Phase 0 starts segment 0, whose first entry is 65535 in a legal table (R130), so the curve starts within one 256th
of full scale, whatever the next entry is. -/
theorem curveValue_zero_ge {t : CurveTable} (h : t.legal) : 65279 ≤ curveValue t 0#16 := by
  have hrom : rom t 0#8 = 65535 := congrArg BitVec.toNat h.1
  have hend := segmentEnd_le t 0#8
  have hval : curveValue t 0#16 = segmentEnd t 0#8 + (rom t 0#8 - segmentEnd t 0#8) * 255 / 256 := rfl
  omega

/-- The attack's first value is below the threshold, so the assertion step never enters the decay (R153, R159). -/
theorem attackValue_assertionEdge_lt {s : State} (h : s.params.legal) : s.assertionEdge.attackValue < 1023 := by
  have hcurve := curveValue_zero_ge h.2.2
  have hval : s.assertionEdge.attackValue =
      (65535 - curveValue s.params.curveTable 0#16) * 1200 / 65536 := rfl
  omega

/-- A granule is less than the room of a ramp at phase 0, so a ramp never ends in the step that starts it (R163). -/
theorem gr_lt_room_releaseToRamp (s : State) : s.releaseToRamp.gr.toNat < 65535 - s.releaseToRamp.ph.toNat := by
  have hgr := s.releaseToRamp.gr.isLt
  have hph : s.releaseToRamp.ph.toNat = 0 := rfl
  omega

/-- The release edge at zero output (R156). -/
theorem releaseEdge_of_out_zero {s : State} (h : s.out = 0#10) : s.releaseEdge = s.releaseToIdle := if_pos h

/-- The release edge at nonzero output (R155). -/
theorem releaseEdge_of_out_ne_zero {s : State} (h : s.out ≠ 0#10) : s.releaseEdge = s.releaseToRamp := if_neg h

/-- The envelope step of an assertion: the attack is evaluated at phase 0 (R153, R157). -/
theorem envStep_assertion {s : State} (hp : s.params.legal) (hd : s.db = 0#7) :
    s.envStep 0#1 =
      { s.assertionEdge with
        ph := 0#16 + s.assertionEdge.gr.setWidth 16
        out := BitVec.ofNat 10 s.assertionEdge.attackValue } := by
  rw [State.envStep, edgeDetect_assertion hd]
  exact evalStage_attack rfl (attackValue_assertionEdge_lt hp)

/-- The envelope step of a release at zero output: `Idle`, so phase 2 changes nothing (R156, R164). -/
theorem envStep_releaseToIdle {s : State} (hd : s.db = 1#7) (ho : s.out = 0#10) :
    s.envStep 1#1 = s.releaseToIdle := by
  rw [State.envStep, edgeDetect_release hd, releaseEdge_of_out_zero ho]
  exact evalStage_idle rfl

/-- The envelope step of a release at nonzero output: the ramp is evaluated at phase 0 (R155, R157). -/
theorem envStep_releaseToRamp {s : State} (hd : s.db = 1#7) (ho : s.out ≠ 0#10) :
    s.envStep 1#1 =
      { s.releaseToRamp with
        ph := 0#16 + s.releaseToRamp.gr.setWidth 16
        out := BitVec.ofNat 10 s.releaseToRamp.rampValue } := by
  rw [State.envStep, edgeDetect_release hd, releaseEdge_of_out_ne_zero ho]
  exact evalStage_ramp rfl (gr_lt_room_releaseToRamp s)

/-- The release ramp's first value: the output it captured, scaled by the curve's start (R155, R162). -/
theorem rampValue_releaseToRamp (s : State) :
    s.releaseToRamp.rampValue = curveValue s.params.curveTable 0#16 * s.out.toNat / 65536 := by
  have hdsc : s.releaseToRamp.dsc.toNat = s.out.toNat := BitVec.toNat_setWidth_of_le (by decide)
  rw [State.rampValue, hdsc]
  rfl

/-- Settles O32: the assertion edge and the attack below its threshold at phase 0. -/
theorem envAssertionEdge : Obligations.EnvAssertionEdge := by
  intro s hp hl hu hd
  refine execEnv_next.2 ⟨hl, hu, ?_⟩
  rw [envStep_assertion hp hd, BitVec.zero_add]
  rfl

/-- Settles O35: the release edge and the ramp going on at phase 0. -/
theorem envReleaseRamp : Obligations.EnvReleaseRamp := by
  intro s hl hu hd ho
  refine execEnv_next.2 ⟨hl, hu, ?_⟩
  rw [envStep_releaseToRamp hd ho, rampValue_releaseToRamp, BitVec.zero_add]
  rfl

/-- Settles O34: the release edge to `Idle`, where nothing is evaluated. -/
theorem envReleaseAtZero : Obligations.EnvReleaseAtZero := by
  intro s hl hu hd ho
  refine execEnv_next.2 ⟨hl, hu, ?_⟩
  rw [envStep_releaseToIdle hd ho]
  rfl

end Sys2Proof.Machine
end

section
/-! The start branch of the sampler step (spec/43_sampler.md R191). -/

namespace Sys2Proof.Machine

/-- With no conversion started, the branch is chosen by `STARTED` alone, before `r` and `v` are looked at (R190). -/
theorem sampleStep_of_not_started {r : Bit} {v : Level} {s : State} (h : s.started = false) :
    s.sampleStep r v = s.startConversion :=
  if_pos h

/-- Settles O49: SAMP is enabled, and its step is the start branch whatever `r` and `v` are. -/
theorem sampStarts : Obligations.SampStarts := by
  intro r v s hsmp hloc hstarted
  refine execSamp_next.2 ⟨⟨hsmp, hloc⟩, ?_⟩
  rw [sampleStep_of_not_started hstarted]
  rfl

end Sys2Proof.Machine
end

section
/-! The encoding (spec/30_encoding.md R81 to R90): the decoder, the encoder and the opcode rows as conditions on the
number a word is, and the assembler. -/

namespace Sys2Proof

/-- A bit field, as a number (R81). -/
theorem extractLsb'_toNat_eq_div_mod (w : EventWord) (k n : Nat) :
    (w.extractLsb' k n).toNat = w.toNat / 2 ^ k % 2 ^ n := by
  rw [BitVec.extractLsb'_toNat, Nat.shiftRight_eq_div_pow]

/-- The decoder's condition on a row without operands: the word is the row's pattern (R83). -/
theorem opField_and_mbz13_iff {w : EventWord} {op : BitVec 3} :
    (opField w = op ∧ w.extractLsb' 0 13 = 0#13) ↔ w.toNat = 8192 * op.toNat := by
  have hw := w.isLt
  simp only [opField, ← BitVec.toNat_inj, extractLsb'_toNat_eq_div_mod, BitVec.toNat_ofNat]
  omega

/-- The decoder's condition on the row of ENV: all bits but the lowest are fixed (R84). -/
theorem opField_and_mbz12_iff {w : EventWord} {op : BitVec 3} :
    (opField w = op ∧ w.extractLsb' 1 12 = 0#12) ↔ w.toNat / 2 = 4096 * op.toNat := by
  have hw := w.isLt
  simp only [opField, ← BitVec.toNat_inj, extractLsb'_toNat_eq_div_mod, BitVec.toNat_ofNat]
  omega

/-- The decoder's condition on the row of SAMP: the upper five bits are fixed (R85). -/
theorem opField_and_mbz2_iff {w : EventWord} {op : BitVec 3} :
    (opField w = op ∧ w.extractLsb' 11 2 = 0#2) ↔ w.toNat / 2048 = 4 * op.toNat := by
  have hw := w.isLt
  simp only [opField, ← BitVec.toNat_inj, extractLsb'_toNat_eq_div_mod, BitVec.toNat_ofNat]
  omega

theorem gField_toNat (w : EventWord) : (gField w).toNat = w.toNat % 2 := by
  rw [gField, extractLsb'_toNat_eq_div_mod, pow_zero, Nat.div_one, pow_one]

theorem rField_toNat (w : EventWord) : (rField w).toNat = w.toNat / 1024 % 2 :=
  extractLsb'_toNat_eq_div_mod w 10 1

theorem vField_toNat (w : EventWord) : (vField w).toNat = w.toNat % 1024 := by
  rw [vField, extractLsb'_toNat_eq_div_mod, pow_zero, Nat.div_one, show 2 ^ 10 = 1024 from rfl]

/-- The decoder, by the number the word is (R86, R87). -/
theorem decode_eq (w : EventWord) :
    decode w =
      if w.toNat = 0x2000 then .ok .tick
      else if w.toNat / 2 = 0x2000 then .ok (.env (gField w))
      else if w.toNat = 0x6000 then .ok .clru
      else if w.toNat / 2048 = 16 then .ok (.samp (rField w) (vField w))
      else if w.toNat = 0xA000 then .ok .loop
      else .error .reservedWord := by
  simp only [decode, opField_and_mbz13_iff, opField_and_mbz12_iff, opField_and_mbz2_iff,
    BitVec.toNat_ofNat, Nat.reduceMul, Nat.reduceMod, Nat.reducePow]

theorem encode_env_toNat (g : Bit) : (encode (.env g)).toNat = 0x4000 + g.toNat := by
  revert g; decide

/-- The fields of a SAMP word do not overlap, so its number is their sum (R85). -/
theorem encode_samp_toNat (r : Bit) (v : Level) :
    (encode (.samp r v)).toNat = 0x8000 + 1024 * r.toNat + v.toNat := by
  have hr : r.toNat < 2 := r.isLt
  have hv : v.toNat < 1024 := v.isLt
  have hshift : (r.toNat % 2 ^ 16) <<< 10 % 2 ^ 16 = 1024 * r.toNat := by
    rw [Nat.shiftLeft_eq]; omega
  have hop : 0x8000 ||| 1024 * r.toNat = 1024 * (32 + r.toNat) := by
    rw [Nat.mul_add]
    exact (Nat.two_pow_add_eq_or_of_lt (i := 15) (by omega) 1).symm
  have hsum : 1024 * (32 + r.toNat) + v.toNat = 1024 * (32 + r.toNat) ||| v.toNat :=
    Nat.two_pow_add_eq_or_of_lt (i := 10) hv _
  simp only [encode, BitVec.toNat_or, BitVec.toNat_ofNat, BitVec.toNat_shiftLeft, BitVec.toNat_setWidth]
  rw [hshift, Nat.mod_eq_of_lt (show 0x8000 < 2 ^ 16 by decide), Nat.mod_eq_of_lt (show v.toNat < 2 ^ 16 by omega),
    hop, ← hsum]
  omega

/-- Settles O1: the number of each instruction's word meets its own row's condition only, and gives the operands back. -/
theorem decodeOfEncode : Obligations.DecodeOfEncode := by
  intro i
  cases i with
  | tick => rfl
  | env g => revert g; decide
  | clru => rfl
  | samp r v =>
    have hword := encode_samp_toNat r v
    have hr : r.toNat < 2 := r.isLt
    have hv : v.toNat < 1024 := v.isLt
    have hrow : (encode (.samp r v)).toNat / 2048 = 16 := by omega
    have hrf : rField (encode (.samp r v)) = r := by
      rw [← BitVec.toNat_inj, rField_toNat]; omega
    have hvf : vField (encode (.samp r v)) = v := by
      rw [← BitVec.toNat_inj, vField_toNat]; omega
    rw [decode_eq, if_neg (by omega), if_neg (by omega), if_neg (by omega), if_pos hrow, hrf, hvf]
  | loop => rfl

/-- Settles O2: in each branch of the decoder the word's number is that of the instruction's word. -/
theorem encodeOfDecode : Obligations.EncodeOfDecode := by
  intro w i h
  have hg := gField_toNat w
  have hr := rField_toNat w
  have hv := vField_toNat w
  rw [← BitVec.toNat_inj]
  rw [decode_eq] at h
  split_ifs at h with htick henv hclru hsamp hloop <;> cases h
  · exact htick.symm
  · rw [encode_env_toNat]; omega
  · exact hclru.symm
  · rw [encode_samp_toNat]; omega
  · exact hloop.symm

/-- The reserved words, by the number the word is (R86). -/
theorem decode_error_iff (w : EventWord) :
    decode w = .error .reservedWord ↔
      w.toNat ≠ 0x2000 ∧ w.toNat / 2 ≠ 0x2000 ∧ w.toNat ≠ 0x6000 ∧ w.toNat / 2048 ≠ 16 ∧ w.toNat ≠ 0xA000 := by
  rw [decode_eq]
  split_ifs <;> simp_all

/-- A mask of the upper bits leaves the multiple of a power of two below the word. -/
theorem and_allOnes_shiftLeft_toNat (w : EventWord) (k : Nat) :
    (w &&& BitVec.allOnes 16 <<< k).toNat = w.toNat / 2 ^ k * 2 ^ k := by
  have hle := Nat.div_mul_le_self w.toNat (2 ^ k)
  have hw := w.isLt
  rw [← BitVec.shiftLeft_ushiftRight, BitVec.toNat_shiftLeft, BitVec.toNat_ushiftRight, Nat.shiftLeft_eq,
    Nat.shiftRight_eq_div_pow, Nat.mod_eq_of_lt (by omega)]

/-- A word of a row without operands (opcode_table.json). -/
theorem and_mask16_iff {w p : EventWord} : w &&& 0xFFFF#16 = p ↔ w.toNat = p.toNat := by
  rw [show w &&& 0xFFFF#16 = w from BitVec.and_allOnes, BitVec.toNat_inj]

/-- A word of the row of ENV (opcode_table.json). -/
theorem and_mask15_iff {w : EventWord} : w &&& 0xFFFE#16 = 0x4000#16 ↔ w.toNat / 2 = 0x2000 := by
  have hmask := and_allOnes_shiftLeft_toNat w 1
  rw [← BitVec.toNat_inj, show (0xFFFE#16) = BitVec.allOnes 16 <<< 1 from rfl, hmask, BitVec.toNat_ofNat]
  omega

/-- A word of the row of SAMP (opcode_table.json). -/
theorem and_mask5_iff {w : EventWord} : w &&& 0xF800#16 = 0x8000#16 ↔ w.toNat / 2048 = 16 := by
  have hmask := and_allOnes_shiftLeft_toNat w 11
  rw [← BitVec.toNat_inj, show (0xF800#16) = BitVec.allOnes 16 <<< 11 from rfl, hmask, BitVec.toNat_ofNat]
  omega

theorem rowOf_mem_opRows (i : Instr) : rowOf i ∈ opRows := by
  cases i <;> simp [opRows, rowOf]

/-- The word of an instruction is of the instruction's row (R83 to R85). -/
theorem encode_matches_rowOf (i : Instr) : encode i &&& (rowOf i).mask = (rowOf i).pattern := by
  cases i with
  | tick => exact Laws.RowMatch.tick
  | env g => exact Laws.RowMatch.env g
  | clru => exact Laws.RowMatch.clru
  | samp r v => exact Laws.RowMatch.samp r v
  | loop => exact Laws.RowMatch.loop

/-- Settles O3: a reserved word fails each row's condition on its number, and a word that decodes is an encoded one. -/
theorem decodeAgreesWithOpcodeRows : Obligations.DecodeAgreesWithOpcodeRows := by
  refine ⟨fun w => ?_, fun w i h => ⟨rowOf_mem_opRows i, ?_⟩⟩
  · rw [decode_error_iff]
    simp [opRows, rowOf, and_mask16_iff, and_mask15_iff, and_mask5_iff]
  · rw [← encodeOfDecode w i h]
    exact encode_matches_rowOf i

/-- Settles O5: the tabulated vectors, evaluated. -/
theorem wordsDecodeAsTabulated : Obligations.WordsDecodeAsTabulated := by
  unfold Obligations.WordsDecodeAsTabulated
  decide

/-- An item with its operands in range assembles to the words of its actions (R89). -/
theorem assemble_of_wellFormed {a : AsmItem} (h : a.wellFormed = true) :
    a.assemble = some (a.expand.map encode) :=
  if_pos h

/-- An item with an operand out of range does not assemble (R89). -/
theorem assemble_of_not_wellFormed {a : AsmItem} (h : a.wellFormed = false) : a.assemble = none := by
  rw [AsmItem.assemble, h]
  rfl

/-- The word of ENV, for a gate level as the source writes it (R84, R89). -/
theorem encode_env_ofNat {g : Nat} (hg : g < 2) :
    encode (.env (BitVec.ofNat 1 g)) = BitVec.ofNat 16 (0x4000 + g) := by
  rw [← BitVec.toNat_inj, encode_env_toNat, BitVec.toNat_ofNat, BitVec.toNat_ofNat]
  omega

/-- The word of SAMP, for operands as the source writes them (R85, R89). -/
theorem encode_samp_ofNat {r v : Nat} (hr : r < 2) (hv : v < 1024) :
    encode (.samp (BitVec.ofNat 1 r) (BitVec.ofNat 10 v)) = BitVec.ofNat 16 (0x8000 + 1024 * r + v) := by
  rw [← BitVec.toNat_inj, encode_samp_toNat, BitVec.toNat_ofNat, BitVec.toNat_ofNat, BitVec.toNat_ofNat]
  omega

/-- Settles O6: the words of the actions an item expands to, and the ranges `wellFormed` checks. -/
theorem pseudoInstructionsAssemble : Obligations.PseudoInstructionsAssemble := by
  refine ⟨rfl, rfl, rfl, rfl, fun v hv => ?_, fun g hg => ⟨?_, ?_, ?_⟩, fun r v hr hv => ?_,
    fun g hg => ⟨?_, ?_, ?_⟩, fun r v h => ?_, fun v hv => ?_⟩
  · rw [assemble_of_wellFormed (a := .done v) (decide_eq_true hv)]
    exact congrArg (some [·]) (encode_samp_ofNat (r := 1) (by decide) hv)
  · rw [assemble_of_wellFormed (a := .service g) (decide_eq_true hg), ← encode_env_ofNat hg]
    rfl
  · rw [assemble_of_wellFormed (a := .cycle g) (decide_eq_true hg), ← encode_env_ofNat hg]
    rfl
  · rw [assemble_of_wellFormed (a := .env g) (decide_eq_true hg), ← encode_env_ofNat hg]
    rfl
  · rw [assemble_of_wellFormed (by simp [AsmItem.wellFormed, hr, hv]), ← encode_samp_ofNat hr hv]
    rfl
  · exact assemble_of_not_wellFormed (decide_eq_false (by omega))
  · exact assemble_of_not_wellFormed (decide_eq_false (by omega))
  · exact assemble_of_not_wellFormed (decide_eq_false (by omega))
  · refine assemble_of_not_wellFormed ?_
    simp only [AsmItem.wellFormed, Bool.and_eq_false_iff, decide_eq_false_iff_not]
    omega
  · exact assemble_of_not_wellFormed (decide_eq_false (by omega))

/-- The packed flags: bit 0 is `UPD`, bit 1 `SMP` (R32). -/
theorem flags_getLsbD (s : Machine.State) : s.flags.getLsbD 0 = s.upd ∧ s.flags.getLsbD 1 = s.smp := by
  cases hu : s.upd <;> cases hs : s.smp <;> simp [Machine.State.flags, hu, hs]

/-- Settles O7: the codes, value by value. -/
theorem codesOfStateAndFlags : Obligations.CodesOfStateAndFlags := by
  refine ⟨fun x => ?_, fun l => ?_, by decide, by decide, rfl, rfl, rfl, rfl, rfl, rfl, flags_getLsbD⟩
  · cases x <;> rfl
  · cases l <;> rfl

end Sys2Proof
end

section
/-! What each action writes (spec/10_state.md R48), and steps and runs of the machine as steps and runs of actions
(R80, R87). -/

namespace Sys2Proof.Machine

theorem execTick_next {s t : State} :
    execTick s = .next t ↔ t = { s with
      duty := some s.out
      events := s.events ++ [.duty s.out]
      upd := true
      smp := s.smp || decide (s.cd - 1 = 0)
      cd := if s.cd - 1 = 0 then s.params.sampleInterval else s.cd - 1 } := by
  rw [execTick_eq, Host.Outcome.next.injEq, eq_comm]

theorem whenEnabled_next_or_fault (b : Bool) (t : State) :
    (∃ u, whenEnabled b t = .next u) ∨ whenEnabled b t = .fault .notEnabled := by
  cases b
  · exact .inr rfl
  · exact .inl ⟨t, rfl⟩

/-- An action takes a step, or is a consumer action that is not enabled (R102, R115). -/
theorem exec_next_or_fault (i : Instr) (s : State) :
    (∃ t, exec i s = .next t) ∨ (i ≠ .tick ∧ exec i s = .fault .notEnabled) := by
  cases i with
  | tick => exact .inl ⟨_, rfl⟩
  | env | clru | samp | loop => exact (whenEnabled_next_or_fault _ _).imp_right fun h => ⟨nofun, h⟩

/-- No action is refused: only a reserved word is (R86, R210). -/
theorem exec_ne_refused (i : Instr) (s : State) (r : Refusal) : exec i s ≠ .refused r := by
  rcases exec_next_or_fault i s with ⟨t, h⟩ | ⟨-, h⟩ <;> simp [h]

/-- Settles O25: the one record each action answers, compared with the state before it. -/
theorem onlyTheListedActionWrites : Obligations.OnlyTheListedActionWrites := by
  intro i s t h
  cases i with
  | tick =>
    obtain rfl := execTick_next.1 h
    simpa using Or.inl
  | env g =>
    obtain ⟨hlpc, hupd, rfl⟩ := execEnv_next.1 h
    simp
  | clru =>
    obtain ⟨hlpc, rfl⟩ := execClru_next.1 h
    simp
  | samp r v =>
    obtain ⟨⟨hsmp, hloc⟩, rfl⟩ := execSamp_next.1 h
    rcases sampleStep_cases r v s with ⟨hs, hstep⟩ | ⟨hs, rfl, hstep⟩ | ⟨hs, rfl, hstep⟩ <;>
      simp [hstep, hs]
  | loop =>
    obtain ⟨hloc, rfl⟩ := execLoop_next.1 h
    simp

/-- The fields the envelope step reads or writes (R48): the engine's registers, the control parameters excepted. -/
structure SameEngine (s t : State) : Prop where
  st : t.st = s.st
  ph : t.ph = s.ph
  gr : t.gr = s.gr
  dsc : t.dsc = s.dsc
  tgt : t.tgt = s.tgt
  out : t.out = s.out
  db : t.db = s.db
  params : t.params = s.params

/-- An action that is no envelope step leaves the engine alone (R48). -/
theorem exec_sameEngine {i : Instr} {s t : State} (h : exec i s = .next t) (hi : ∀ g, i ≠ .env g) :
    SameEngine s t := by
  obtain ⟨hengine, -, -, -, -, -, -, -, -, -, hparams, -⟩ := onlyTheListedActionWrites i s t h
  have hsame := mt hengine (by simpa using hi)
  simp only [not_or, not_not, ne_eq] at hsame
  obtain ⟨hst, hph, hgr, hdsc, htgt, hout, hdb⟩ := hsame
  exact ⟨hst, hph, hgr, hdsc, htgt, hout, hdb, hparams⟩

theorem exec_params {i : Instr} {s t : State} (h : exec i s = .next t) : t.params = s.params := by
  obtain ⟨-, -, -, -, -, -, -, -, -, -, hparams, -⟩ := onlyTheListedActionWrites i s t h
  exact hparams

/-- A property that each action of a run keeps holds at its end. -/
theorem runActions_induction {P : State → Prop} {acts : List Instr}
    (hstep : ∀ i ∈ acts, ∀ s t, P s → exec i s = .next t → P t) {s t : State} (hs : P s)
    (h : runActions acts s = .next t) : P t := by
  induction acts generalizing s with
  | nil => cases h; exact hs
  | cons i rest ih =>
    obtain ⟨u, hu, hrest⟩ := runActions_cons_next.1 h
    exact ih (fun j hj => hstep j (.tail i hj)) (hstep i (.head rest) s u hs hu) hrest

/-- With no word left a step stops (R261). -/
theorem step_nil {s : State} (h : s.sched = []) : step s = .fault .scheduleEmpty := by
  rw [step, fetch_nil h]

/-- A step over a reserved word is refused (R86). -/
theorem step_of_decode_error {s : State} {w : EventWord} {rest : List EventWord} (hs : s.sched = w :: rest)
    (hw : decode w = .error .reservedWord) : step s = .refused .reservedWord := by
  rw [step, fetch_cons hs]
  simp only [hw]

/-- Settles O8: fetching the word, then its instruction's meaning. -/
theorem stepRunsDecodedWord : Obligations.StepRunsDecodedWord := by
  intro s w rest i hs hw
  rw [step, fetch_cons hs]
  simp only [hw]

/-- A word decodes, or it is reserved. -/
theorem decode_cases (w : EventWord) : (∃ i, decode w = .ok i) ∨ decode w = .error .reservedWord := by
  cases h : decode w with
  | ok i => exact .inl ⟨i, rfl⟩
  | error e => cases e; exact .inr rfl

/-- Everything a step can find (R80, R86, R87): no word, a reserved word, or an instruction to run. -/
theorem step_cases (s : State) :
    (s.sched = [] ∧ step s = .fault .scheduleEmpty) ∨
    (∃ w rest, s.sched = w :: rest ∧ decode w = .error .reservedWord ∧ step s = .refused .reservedWord) ∨
    (∃ w rest i, s.sched = w :: rest ∧ decode w = .ok i ∧ step s = exec i { s with sched := rest }) := by
  cases hs : s.sched with
  | nil => exact .inl ⟨rfl, step_nil hs⟩
  | cons w rest =>
    rcases decode_cases w with ⟨i, hw⟩ | hw
    · exact .inr (.inr ⟨w, rest, i, rfl, hw, stepRunsDecodedWord s w rest i hs hw⟩)
    · exact .inr (.inl ⟨w, rest, rfl, hw, step_of_decode_error hs hw⟩)

/-- Settles O9: what a step finds, and what an instruction answers. -/
theorem stepStopsOnlyByName : Obligations.StepStopsOnlyByName := by
  intro s
  rcases step_cases s with h | h | ⟨w, rest, i, hs, hw, hstep⟩
  · exact .inr (.inl h)
  · exact .inr (.inr (.inl h))
  · rcases exec_next_or_fault i { s with sched := rest } with ⟨t, ht⟩ | ⟨hi, hf⟩
    · exact .inl ⟨t, hstep.trans ht⟩
    · exact .inr (.inr (.inr ⟨w, rest, i, hs, hw, hi, hstep.trans hf⟩))

/-- A step refuses its word exactly where the decoder does. -/
theorem step_refused_iff {s : State} {w : EventWord} {rest : List EventWord} (hs : s.sched = w :: rest) :
    step s = .refused .reservedWord ↔ decode w = .error .reservedWord := by
  rcases decode_cases w with ⟨i, hw⟩ | hw
  · rw [stepRunsDecodedWord s w rest i hs hw, hw]
    simp [exec_ne_refused]
  · simp [step_of_decode_error hs hw, hw]

/-- Settles O4: the reserved words by their numbers (`decode_error_iff`), with the fields taken by division. -/
theorem stepRefusesExactlyReservedWords : Obligations.StepRefusesExactlyReservedWords := by
  intro s w rest hs
  have hw := w.isLt
  rw [step_refused_iff hs, decode_error_iff]
  omega

/-- A step over an instruction's own word runs the instruction (R87). -/
theorem step_encode (i : Instr) (rest : List EventWord) (s : State) :
    step { s with sched := encode i :: rest } = exec i { s with sched := rest } :=
  stepRunsDecodedWord _ _ rest i rfl (decodeOfEncode i)

/-- Settles O10, by induction on the actions: each step over a word is its action, and leaves the other words. -/
theorem scheduleRunIsActionRun : Obligations.ScheduleRunIsActionRun := by
  intro acts rest s
  induction acts generalizing s with
  | nil => rfl
  | cons i acts ih =>
    have hstep : core.step { s with sched := encode i :: (acts.map encode ++ rest) } =
        exec i { s with sched := acts.map encode ++ rest } := step_encode i _ s
    simp only [List.map_cons, List.cons_append, List.length_cons, Host.Core.run, runActions, hstep]
    rw [exec_sched, exec_sched i s rest]
    cases exec i s with
    | next t => exact ih t
    | fault r => rfl
    | refused r => rfl

/-- A run of actions neither reads nor writes the schedule. -/
theorem runActions_sched (acts : List Instr) (s : State) (x : List EventWord) :
    runActions acts { s with sched := x } = withSched x (runActions acts s) := by
  induction acts generalizing s with
  | nil => rfl
  | cons i acts ih =>
    simp only [runActions, exec_sched]
    cases exec i s with
    | next t => exact ih t
    | fault r => rfl
    | refused r => rfl

/-- The machine over the words of actions that run from `s` to `t`, whatever words follow. -/
theorem run_of_runActions {acts : List Instr} {s t : State} (h : runActions acts s = .next t)
    (rest : List EventWord) :
    core.run acts.length { s with sched := acts.map encode ++ rest } = .next { t with sched := rest } := by
  rw [scheduleRunIsActionRun, runActions_sched, h]
  rfl

end Sys2Proof.Machine
end

section
/-! The invariants of R49: each action keeps them, the envelope step phase by phase. -/

namespace Sys2Proof.Machine

variable {s : State}

/-- The release edge keeps the invariants: a ramp's scale is the nonzero output it captured (R155). -/
theorem releaseEdge_inv (h : s.Inv) : s.releaseEdge.Inv := by
  by_cases ho : s.out = 0#10
  · rw [releaseEdge_of_out_zero ho]
    exact { h with db_le := Nat.zero_le _, attack := nofun, decay := nofun, release := nofun }
  · rw [releaseEdge_of_out_ne_zero ho]
    have hdsc : s.releaseToRamp.dsc.toNat = s.out.toNat := BitVec.toNat_setWidth_of_le (by decide)
    have hpos : s.out.toNat ≠ 0 := fun h0 => ho (BitVec.eq_of_toNat_eq h0)
    have hout := h.out_le
    exact { h with
      gr_pos := granule_pos _ _
      db_le := Nat.zero_le _
      attack := nofun
      decay := fun _ hdb => absurd hdb (Nat.not_succ_le_zero 0)
      release := fun _ _ => ⟨rfl, by omega, by omega⟩ }

/-- The assertion edge sets what R49 asks of an attack (R153). -/
theorem assertionEdge_inv (h : s.Inv) : s.assertionEdge.Inv :=
  { h with
    gr_pos := granule_pos _ _
    db_le := Nat.le_refl _
    attack := fun _ => ⟨rfl, rfl, (by decide : 1 ≤ (100#7).toNat)⟩
    decay := nofun
    release := nofun }

/-- The counter after a step without an edge is 0 exactly where it was, and not above it (R151). -/
theorem heldDb_bounds (s : State) :
    s.heldDb.toNat ≤ s.db.toNat ∧ (s.heldDb.toNat = 0 ↔ s.db.toNat = 0) := by
  have hlt := s.db.isLt
  unfold State.heldDb
  split
  · rw [BitVec.toNat_sub, BitVec.toNat_ofNat]
    omega
  · simp

theorem heldDb_eq_zero_iff (s : State) : s.heldDb = 0#7 ↔ s.db = 0#7 := by
  rw [← BitVec.toNat_inj, ← BitVec.toNat_inj]
  exact (heldDb_bounds s).2

/-- Without an edge only the counter changes, and it stays on its side of 0 (R151, R152). -/
theorem heldDb_inv (h : s.Inv) : ({ s with db := s.heldDb } : State).Inv := by
  obtain ⟨hle, hzero⟩ := heldDb_bounds s
  refine { h with db_le := hle.trans h.db_le, attack := fun hst => ?_, decay := fun hst hdb => ?_,
                  release := fun hst hdb => ?_ }
  · obtain ⟨hdsc, htgt, hdb⟩ := h.attack hst
    exact ⟨hdsc, htgt, show 1 ≤ s.heldDb.toNat by omega⟩
  · have hdb : 1 ≤ s.heldDb.toNat := hdb
    exact h.decay hst (by omega)
  · exact h.release hst ((heldDb_eq_zero_iff s).1 hdb)

/-- Phase 1 of the envelope step keeps the invariants (R151 to R156). -/
theorem edgeDetect_inv (g : Bit) (h : s.Inv) : (s.edgeDetect g).Inv := by
  rcases edge_cases g s with hno | ⟨hdb, rfl⟩ | ⟨hdb, rfl⟩
  · rw [edgeDetect_noEdge hno]
    exact heldDb_inv h
  · rw [edgeDetect_assertion hdb]
    exact assertionEdge_inv h
  · rw [edgeDetect_release hdb]
    exact releaseEdge_inv h

/-- `OUT` has 10 bits, so its bound holds of any value (R27). -/
theorem level_le (v : Level) : v.toNat ≤ 1023 := Nat.le_of_lt_succ v.isLt

/-- Phase 2 of the envelope step keeps the invariants: an attack hands its counter, at least 1, to the decay (R160), and
the other branches leave what R49 speaks of alone. -/
theorem evalStage_inv (h : s.Inv) : s.evalStage.Inv := by
  cases hst : s.st with
  | idle => rw [evalStage_idle hst]; exact h
  | attacking =>
    obtain ⟨hdsc, htgt, hdb⟩ := h.attack hst
    by_cases hv : s.attackValue < 1023
    · rw [evalStage_attack hst hv]
      exact { h with out_le := level_le _ }
    · rw [evalStage_threshold hst (Nat.le_of_not_lt hv)]
      have hsus := level_le s.par[2]
      refine { h with
        out_le := Nat.le_refl _
        gr_pos := granule_pos _ _
        attack := nofun
        decay := fun _ _ => ?_
        release := fun _ h0 => absurd (congrArg BitVec.toNat h0) (Nat.ne_of_gt hdb) }
      rw [BitVec.toNat_setWidth, BitVec.toNat_ofNat]
      omega
  | decayRelease =>
    by_cases hp : s.gr.toNat < 65535 - s.ph.toNat
    · rw [evalStage_ramp hst hp]
      exact { h with out_le := level_le _ }
    · rw [evalStage_rampEnd hst (Nat.le_of_not_lt hp)]
      exact { h with out_le := level_le _, attack := nofun, decay := nofun, release := nofun }

theorem envStep_inv (g : Bit) (h : s.Inv) : (s.envStep g).Inv := evalStage_inv (edgeDetect_inv g h)

/-- The tick reloads the countdown before it would be 0 (R101). -/
theorem execTick_inv {t : State} (h : s.Inv) (ht : execTick s = .next t) : t.Inv := by
  obtain rfl := execTick_next.1 ht
  have hpos := h.params_legal.1
  have hle := h.cd_le
  refine { h with cd_pos := ?_, cd_le := ?_, started_smp := fun hs => ?_, clru_upd := fun _ => rfl }
  · dsimp only
    split <;> omega
  · dsimp only
    split <;> omega
  · simp [h.started_smp hs]

/-- A conversion is started only with `SMP` set, and both are cleared together (R191, R192). -/
theorem sampleStep_inv (r : Bit) (v : Level) (h : s.Inv) (hsmp : s.smp = true) : (s.sampleStep r v).Inv := by
  rcases sampleStep_cases r v s with ⟨-, hstep⟩ | ⟨-, -, hstep⟩ | ⟨-, -, hstep⟩ <;> rw [hstep]
  · exact { h with started_smp := fun _ => hsmp }
  · exact h
  · exact { h with started_smp := nofun }

/-- A loop position other than `CLRU` asks nothing of the flags (R49 item 7). -/
theorem setLpc_inv {l : LoopPos} (h : s.Inv) (hl : l ≠ .clru) : (s.setLpc l).Inv :=
  { h with clru_upd := fun hc => absurd hc hl }

/-- Every action keeps the invariants of R49. -/
theorem exec_inv {i : Instr} {t : State} (h : s.Inv) (ht : exec i s = .next t) : t.Inv := by
  cases i with
  | tick => exact execTick_inv h ht
  | env g =>
    obtain ⟨-, hupd, rfl⟩ := execEnv_next.1 ht
    exact { envStep_inv g h with clru_upd := fun _ => (envStep_upd g s).trans hupd }
  | clru =>
    obtain ⟨-, rfl⟩ := execClru_next.1 ht
    exact { h with clru_upd := nofun }
  | samp r v =>
    obtain ⟨⟨hsmp, -⟩, rfl⟩ := execSamp_next.1 ht
    exact setLpc_inv (sampleStep_inv r v h hsmp) nofun
  | loop =>
    obtain ⟨-, rfl⟩ := execLoop_next.1 ht
    exact setLpc_inv h nofun

/-- The invariants do not speak of the schedule. -/
theorem sched_inv (h : s.Inv) (x : List EventWord) : ({ s with sched := x } : State).Inv := { h with }

/-- Settles O15: a step that answers a next state runs an action (`step_cases`), and every action keeps them. -/
theorem stepKeepsInvariants : Obligations.StepKeepsInvariants := by
  intro s t h ht
  rcases step_cases s with ⟨-, hf⟩ | ⟨w, rest, -, -, hr⟩ | ⟨w, rest, i, -, -, hstep⟩
  · rw [hf] at ht; cases ht
  · rw [hr] at ht; cases ht
  · exact exec_inv (sched_inv h rest) (hstep.symm.trans ht)

theorem resetWith_inv {p : Params} (h : p.legal) : (State.resetWith p).Inv where
  params_legal := h
  out_le := Nat.zero_le _
  gr_pos := Nat.le_refl _
  db_le := Nat.zero_le _
  cd_pos := h.1
  cd_le := Nat.le_refl _
  attack := nofun
  decay := nofun
  release := nofun
  started_smp := nofun
  clru_upd := nofun

/-- Settles O14: the reset values meet each item, and the parameters the machine is reset with are legal. -/
theorem resetMeetsInvariants : Obligations.ResetMeetsInvariants :=
  ⟨fun _ => resetWith_inv, resetWith_inv params_legal⟩

/-- Settles O16, by induction on the run: the reset state meets them, and each action keeps them and the parameters. -/
theorem reachableStatesMeetInvariants : Obligations.ReachableStatesMeetInvariants := by
  intro p s hp hr
  induction hr with
  | reset => exact ⟨resetWith_inv hp, rfl⟩
  | action i _ hstep ih => exact ⟨exec_inv ih.1 hstep, (exec_params hstep).trans ih.2⟩

/-- Settles O12: the reset state, written out, under the parameters of `Config`. -/
theorem resetState : Obligations.ResetState :=
  ⟨params_legal, Config.params, rfl⟩

end Sys2Proof.Machine
end

section
/-! The curve (spec/41_curve.md R130 to R139) as arithmetic on segment number and offset. -/

namespace Sys2Proof.Machine

/-- Entry `i` of the table, and 0 past its end, so that the end of segment `i` is `entryAt t (i + 1)` (R132, R133). -/
def entryAt (t : CurveTable) (i : Nat) : Nat := if h : i < 256 then t[i].toNat else 0

theorem entryAt_of_lt {t : CurveTable} {i : Nat} (h : i < 256) : entryAt t i = t[i].toNat := dif_pos h

theorem entryAt_256 (t : CurveTable) : entryAt t 256 = 0 := rfl

theorem rom_eq_entryAt (t : CurveTable) (i : BitVec 8) : rom t i = entryAt t i.toNat :=
  (entryAt_of_lt i.isLt).symm

theorem segmentEnd_eq_entryAt (t : CurveTable) (i : BitVec 8) : segmentEnd t i = entryAt t (i.toNat + 1) := by
  have hi := i.isLt
  unfold segmentEnd
  split
  · rw [rom_eq_entryAt, BitVec.toNat_add, BitVec.toNat_ofNat, Nat.mod_eq_of_lt (by omega)]
  · rw [show i.toNat + 1 = 256 by omega, entryAt_256]

/-- The curve at a phase, by its segment `p / 256` and its offset `p % 256` there (R132). -/
theorem curveValue_eq (t : CurveTable) (p : Phase) :
    curveValue t p = entryAt t (p.toNat / 256 + 1) +
      (entryAt t (p.toNat / 256) - entryAt t (p.toNat / 256 + 1)) * (255 - p.toNat % 256) / 256 := by
  have hp := p.isLt
  have hindex : (p.extractLsb' 8 8).toNat = p.toNat / 256 := by
    rw [extractLsb'_toNat_eq_div_mod]; omega
  have hfrac : (p.extractLsb' 0 8).toNat = p.toNat % 256 := by
    rw [extractLsb'_toNat_eq_div_mod]; omega
  simp only [curveValue, rom_eq_entryAt, segmentEnd_eq_entryAt, hindex, hfrac]

/-- The curve at offset `f` of segment `i` (R132, R133). -/
theorem curveValue_segment (t : CurveTable) {i f : Nat} (hi : i < 256) (hf : f < 256) :
    curveValue t (BitVec.ofNat 16 (256 * i + f)) =
      entryAt t (i + 1) + (entryAt t i - entryAt t (i + 1)) * (255 - f) / 256 := by
  have hp : (BitVec.ofNat 16 (256 * i + f)).toNat = 256 * i + f := by
    rw [BitVec.toNat_ofNat]; omega
  rw [curveValue_eq, hp, show (256 * i + f) / 256 = i by omega, show (256 * i + f) % 256 = f by omega]

/-- A legal table's entries fall, and the 0 past its end keeps the fall going (R130). -/
theorem entryAt_antitone {t : CurveTable} (h : t.legal) : Antitone (entryAt t) := by
  refine antitone_nat_of_succ_le fun i => ?_
  by_cases hi : i < 255
  · rw [entryAt_of_lt (by omega), entryAt_of_lt (by omega)]
    exact h.2 ⟨i, hi⟩
  · rw [entryAt, dif_neg (by omega)]
    exact Nat.zero_le _

theorem entryAt_zero {t : CurveTable} (h : t.legal) : entryAt t 0 = 65535 := congrArg BitVec.toNat h.1

theorem entryAt_succ_le {t : CurveTable} (h : t.legal) (i : Nat) : entryAt t (i + 1) ≤ entryAt t i :=
  entryAt_antitone h (Nat.le_succ i)

/-- A floored share of a drop is at most the drop (R132). -/
theorem share_le (d f : Nat) : d * (255 - f) / 256 ≤ d := by
  simpa using interpolate_le d 0 d f (Nat.le_refl d) (Nat.zero_le d)

/-- The curve stays between the ends of its segment (R134 item 1). -/
theorem curveValue_mem_segment {t : CurveTable} (h : t.legal) (p : Phase) :
    entryAt t (p.toNat / 256 + 1) ≤ curveValue t p ∧ curveValue t p ≤ entryAt t (p.toNat / 256) := by
  have hfall := entryAt_succ_le h (p.toNat / 256)
  have hshare := share_le (entryAt t (p.toNat / 256) - entryAt t (p.toNat / 256 + 1)) (p.toNat % 256)
  rw [curveValue_eq]
  omega

/-- Settles O26: within a segment the share falls, and a later segment lies below the end of an earlier one. -/
theorem curveNeverRises : Obligations.CurveNeverRises := by
  intro t p q h hpq
  have hseg : p.toNat / 256 ≤ q.toNat / 256 := Nat.div_le_div_right hpq
  rcases hseg.eq_or_lt with heq | hlt
  · have hf : 255 - q.toNat % 256 ≤ 255 - p.toNat % 256 := by omega
    rw [curveValue_eq, curveValue_eq, heq]
    exact Nat.add_le_add_left (Nat.div_le_div_right (Nat.mul_le_mul_left _ hf)) _
  · calc curveValue t q ≤ entryAt t (q.toNat / 256) := (curveValue_mem_segment h q).2
      _ ≤ entryAt t (p.toNat / 256 + 1) := entryAt_antitone h hlt
      _ ≤ curveValue t p := (curveValue_mem_segment h p).1

/-- At the last offset of a segment the curve meets the segment's end (R134 item 3). -/
theorem curveValue_segment_last (t : CurveTable) {i : Nat} (hi : i < 256) :
    curveValue t (BitVec.ofNat 16 (256 * i + 255)) = entryAt t (i + 1) := by
  rw [curveValue_segment t hi (by decide), Nat.sub_self, Nat.mul_zero, Nat.zero_div, Nat.add_zero]

/-- The last segment falls towards 0 (R133). -/
theorem curveValue_last_segment (t : CurveTable) {f : Nat} (hf : f < 256) :
    curveValue t (BitVec.ofNat 16 (0xFF00 + f)) = t[255].toNat * (255 - f) / 256 := by
  rw [show 0xFF00 + f = 256 * 255 + f from rfl, curveValue_segment t (by decide) hf, entryAt_256,
    entryAt_of_lt (by decide), Nat.zero_add, Nat.sub_zero]

/-- Settles O27: the curve on segment and offset, with the ends of segments 0 to 254 in the table. -/
theorem curveWithinSegment : Obligations.CurveWithinSegment := by
  intro t h
  refine ⟨fun i f hi hf => ?_, fun i hi => ?_, fun f hf => curveValue_last_segment t hf, ?_⟩
  · have hfall := entryAt_succ_le h i
    have hshare := share_le (entryAt t i - entryAt t (i + 1)) f
    rw [curveValue_segment t (by omega) hf, ← entryAt_of_lt (show i + 1 < 256 by omega),
      ← entryAt_of_lt (show i < 256 by omega)]
    exact ⟨by omega, by omega, rfl⟩
  · rw [curveValue_segment_last t (by omega), entryAt_of_lt (by omega)]
  · exact curveValue_segment_last t (i := 255) (by decide)

/-- One step inside a segment takes the drop's 256th, rounded down or up (R136). -/
theorem share_sub_share (d n : Nat) :
    d * (n + 1) / 256 - d * n / 256 = d / 256 ∨ d * (n + 1) / 256 - d * n / 256 = (d + 255) / 256 := by
  rw [Nat.mul_succ]
  omega

/-- Each step inside segment `i` (R136). -/
theorem curveValue_step_in_segment (t : CurveTable) {i f : Nat} (hi : i < 256) (hf : f < 255) :
    curveValue t (BitVec.ofNat 16 (256 * i + f)) - curveValue t (BitVec.ofNat 16 (256 * i + f + 1)) =
        (entryAt t i - entryAt t (i + 1)) / 256 ∨
      curveValue t (BitVec.ofNat 16 (256 * i + f)) - curveValue t (BitVec.ofNat 16 (256 * i + f + 1)) =
        (entryAt t i - entryAt t (i + 1) + 255) / 256 := by
  rw [curveValue_segment t hi (by omega), Nat.add_assoc, curveValue_segment t hi (by omega), Nat.add_sub_add_left,
    show 255 - f = 255 - (f + 1) + 1 by omega]
  exact share_sub_share _ _

/-- The step from the end of segment `i` into the next (R136). -/
theorem curveValue_step_into_segment {t : CurveTable} (h : t.legal) {i : Nat} (hi : i < 255) :
    curveValue t (BitVec.ofNat 16 (256 * i + 255)) - curveValue t (BitVec.ofNat 16 (256 * (i + 1))) =
      (entryAt t (i + 1) - entryAt t (i + 1 + 1) + 255) / 256 := by
  have hfall := entryAt_succ_le h (i + 1)
  rw [curveValue_segment_last t (by omega), ← Nat.add_zero (256 * (i + 1)),
    curveValue_segment t (by omega) (by decide)]
  omega

/-- Settles O28: the step into a segment, and each step inside it. -/
theorem curveBoundaryStep : Obligations.CurveBoundaryStep := by
  intro t i hi h
  have hdrop : t[i + 1].toNat - (if h : i + 2 < 256 then t[i + 2].toNat else 0) =
      entryAt t (i + 1) - entryAt t (i + 1 + 1) := by
    rw [entryAt_of_lt (show i + 1 < 256 by omega), entryAt]
  dsimp only
  rw [hdrop]
  exact ⟨curveValue_step_into_segment h hi, fun f hf => curveValue_step_in_segment t (by omega) hf⟩

/-- The granule, by the entry of its parameter (R137). -/
theorem granule_toNat_entryAt (t : CurveTable) (q : Level) :
    (granule t q).toNat = max 1 (entryAt t (q.toNat / 4) / 256) := by
  have hq := q.isLt
  rw [granule_toNat, rom_eq_entryAt, BitVec.toNat_ofNat, Nat.mod_eq_of_lt (by omega)]

/-- Settles O29: the clamped quotient of an entry (`granule_toNat_entryAt`), and the entries fall. -/
theorem granuleProperties : Obligations.GranuleProperties := by
  intro t h
  refine ⟨fun q i hi hq => ?_, fun q => ⟨granule_pos t q, Nat.le_of_lt_succ (granule t q).isLt⟩,
    fun q r hqr => ?_, fun q r hqr => ?_, fun q hq => ?_⟩
  · rw [← BitVec.toNat_inj, granule_toNat_entryAt, hq, entryAt_of_lt hi, BitVec.toNat_ofNat]
    refine ⟨rfl, ?_⟩
    omega
  · have hfall : entryAt t (r.toNat / 4) ≤ entryAt t (q.toNat / 4) := entryAt_antitone h (Nat.div_le_div_right hqr)
    rw [granule_toNat_entryAt, granule_toNat_entryAt]
    omega
  · rw [← BitVec.toNat_inj, granule_toNat_entryAt, granule_toNat_entryAt, hqr]
  · rw [← BitVec.toNat_inj, granule_toNat_entryAt, show q.toNat / 4 = 0 by omega, entryAt_zero h]
    rfl

end Sys2Proof.Machine
end

section
/-! The envelope step without an edge (spec/42_envelope.md R151, R152, R157 to R164): idle, attack and ramp, each as one
record. -/

namespace Sys2Proof.Machine

variable {g : Bit} {s : State}

theorem heldDb_of_one_lt (h : 1 < s.db.toNat) : s.heldDb = s.db - 1#7 := if_pos h

theorem heldDb_of_le_one (h : s.db.toNat ≤ 1) : s.heldDb = s.db := if_neg (Nat.not_lt_of_le h)

theorem heldDb_toNat (h : 1 < s.db.toNat) : s.heldDb.toNat = s.db.toNat - 1 := by
  have hlt := s.db.isLt
  rw [heldDb_of_one_lt h, BitVec.toNat_sub, BitVec.toNat_ofNat]
  omega

/-- Advancing the phase, as a word (R161). -/
theorem advance_eq_ofNat (p : Phase) (g : Granule) :
    p + g.setWidth 16 = BitVec.ofNat 16 ((p.toNat + g.toNat) % 65536) := by
  rw [← BitVec.toNat_inj, advance_toNat, BitVec.toNat_ofNat]
  omega

/-- A phase with room for the granule does not wrap (R163). -/
theorem advance_toNat_of_lt {p : Phase} {g : Granule} (h : g.toNat < 65535 - p.toNat) :
    (p + g.setWidth 16).toNat = p.toNat + g.toNat := by
  rw [advance_toNat]
  omega

theorem envStep_of_noEdge (hno : s.noEdge g) : s.envStep g = ({ s with db := s.heldDb } : State).evalStage := by
  rw [State.envStep, edgeDetect_noEdge hno]

/-- No edge in `Idle` (R164). -/
theorem envStep_idle (hno : s.noEdge g) (hst : s.st = .idle) : s.envStep g = { s with db := s.heldDb } := by
  rw [envStep_of_noEdge hno]
  exact evalStage_idle hst

/-- No edge in an attack below its threshold (R158, R161). -/
theorem envStep_attack (hno : s.noEdge g) (hst : s.st = .attacking) (hv : s.attackValue < 1023) :
    s.envStep g =
      { s with db := s.heldDb, ph := s.ph + s.gr.setWidth 16, out := BitVec.ofNat 10 s.attackValue } := by
  rw [envStep_of_noEdge hno]
  exact evalStage_attack (s := { s with db := s.heldDb }) hst hv

/-- No edge in an attack at its threshold (R159, R160). -/
theorem envStep_threshold (hno : s.noEdge g) (hst : s.st = .attacking) (hv : 1023 ≤ s.attackValue) :
    s.envStep g =
      { s with
        db := s.heldDb
        tgt := s.par[2].setWidth 11
        dsc := BitVec.ofNat 11 (1023 - s.par[2].toNat)
        ph := 0#16
        gr := granule s.params.curveTable s.par[1]
        st := .decayRelease
        out := 1023#10 } := by
  rw [envStep_of_noEdge hno]
  exact evalStage_threshold (s := { s with db := s.heldDb }) hst hv

/-- No edge in a ramp with no room left (R162, R163). -/
theorem envStep_rampEnd (hno : s.noEdge g) (hst : s.st = .decayRelease) (hp : 65535 - s.ph.toNat ≤ s.gr.toNat) :
    s.envStep g = { s with db := s.heldDb, ph := 0#16, st := .idle, out := BitVec.ofNat 10 s.rampValue } := by
  rw [envStep_of_noEdge hno]
  exact evalStage_rampEnd (s := { s with db := s.heldDb }) hst hp

/-- No edge in a ramp that goes on (R162, R163). -/
theorem envStep_ramp (hno : s.noEdge g) (hst : s.st = .decayRelease) (hp : s.gr.toNat < 65535 - s.ph.toNat) :
    s.envStep g =
      { s with db := s.heldDb, ph := s.ph + s.gr.setWidth 16, out := BitVec.ofNat 10 s.rampValue } := by
  rw [envStep_of_noEdge hno]
  exact evalStage_ramp (s := { s with db := s.heldDb }) hst hp

/-- Settles O30: ENV is enabled, and the frame of the envelope step (`envStep_frame`) is the engine's. -/
theorem envCompletesWithinEngine : Obligations.EnvCompletesWithinEngine := fun g s hl hu =>
  ⟨_, execEnv_next.2 ⟨hl, hu, rfl⟩, congrArg (State.setLpc .clru) (envStep_frame g s)⟩

/-- Settles O31: without an edge `Idle` changes the counter alone, and the counter only where it is above 1. -/
theorem envIdleHolds : Obligations.EnvIdleHolds := by
  refine fun g s hl hu hst => ⟨fun hdb => ?_, fun hsteady => ?_⟩
  · refine execEnv_next.2 ⟨hl, hu, ?_⟩
    rw [envStep_idle (.inl hdb) hst, heldDb_of_one_lt hdb]
    rfl
  · have hdb : s.db.toNat ≤ 1 := by
      rcases hsteady with ⟨h, -⟩ | ⟨h, -⟩ <;> simp [h]
    refine execEnv_next.2 ⟨hl, hu, ?_⟩
    rw [envStep_idle (.inr hsteady) hst, heldDb_of_le_one hdb]
    rfl

/-- Settles O37: the attack's record below its threshold. -/
theorem envAttackAdvances : Obligations.EnvAttackAdvances := by
  intro g s hl hu hst hno hv
  refine execEnv_next.2 ⟨hl, hu, ?_⟩
  rw [envStep_attack hno hst hv, advance_eq_ofNat]
  rfl

/-- Settles O38: the attack's record at its threshold; at the scale 1200 the threshold is linear in the curve's value. -/
theorem envAttackThreshold : Obligations.EnvAttackThreshold := by
  refine ⟨fun g s hl hu hst hno hv => ?_, fun s hdsc => ?_⟩
  · refine execEnv_next.2 ⟨hl, hu, ?_⟩
    rw [envStep_threshold hno hst hv]
    rfl
  · have hc := curveValue_le s.params.curveTable s.ph
    rw [hdsc, BitVec.toNat_ofNat]
    omega

/-- A value within R27's range is written to `OUT` as it is (R16). -/
theorem ofNat_toNat_of_le {v : Nat} (h : v ≤ 1023) : (BitVec.ofNat 10 v).toNat = v :=
  Nat.mod_eq_of_lt (Nat.lt_succ_of_le h)

/-- A scaled value lies below its scale, since the curve lies below 65536 (R162). -/
theorem scaled_lt {c d : Nat} (hc : c ≤ 65535) (hd : 0 < d) : c * d / 65536 < d :=
  Nat.div_lt_of_lt_mul (Nat.mul_lt_mul_of_pos_right (by omega) hd)

/-- What R49 makes of the ramp's value: it fits `OUT`, lies below the scale of a release, and reaches full scale in a
decay only where there is nothing to scale. -/
theorem rampValue_bounds (h : s.Inv) (hst : s.st = .decayRelease) :
    s.rampValue ≤ 1023 ∧ (s.db = 0#7 → s.rampValue < s.dsc.toNat) ∧
      (s.db ≠ 0#7 → s.rampValue = 1023 → s.dsc = 0#11) := by
  have hc := curveValue_le s.params.curveTable s.ph
  have hval : s.rampValue =
      curveValue s.params.curveTable s.ph * s.dsc.toNat / 65536 + s.tgt.toNat := rfl
  by_cases hdb : s.db = 0#7
  · obtain ⟨htgt, hpos, hle⟩ := h.release hst hdb
    have hlt := scaled_lt hc hpos
    exact ⟨by omega, fun _ => by omega, fun hne => absurd hdb hne⟩
  · have hsum := h.decay hst (Nat.pos_of_ne_zero fun h0 => hdb (BitVec.eq_of_toNat_eq h0))
    rcases Nat.eq_zero_or_pos s.dsc.toNat with hzero | hpos
    · rw [hzero, Nat.mul_zero, Nat.zero_div] at hval
      exact ⟨by omega, fun h0 => absurd h0 hdb, fun _ _ => BitVec.eq_of_toNat_eq hzero⟩
    · have hlt := scaled_lt hc hpos
      exact ⟨by omega, fun h0 => absurd h0 hdb, fun _ _ => by omega⟩

/-- Settles O39: the ramp's two records, and the bounds R49 puts on its value. -/
theorem envRampStep : Obligations.EnvRampStep := by
  refine fun g s hl hu hst hno => ⟨fun hp => ?_, fun hp => ⟨by omega, ?_⟩, fun h => rampValue_bounds h hst⟩
  · refine execEnv_next.2 ⟨hl, hu, ?_⟩
    rw [envStep_rampEnd hno hst hp]
    rfl
  · refine execEnv_next.2 ⟨hl, hu, ?_⟩
    rw [envStep_ramp hno hst hp, advance_eq_ofNat, Nat.mod_eq_of_lt (by omega)]
    rfl

theorem stage_cases (x : Stage) : x = .idle ∨ x = .attacking ∨ x = .decayRelease := by
  cases x <;> simp

/-- Phase 2 reads the control parameters at the attack's threshold only (R254). -/
theorem evalStage_par (p : ParamStore) (h : s.st = .attacking → s.attackValue < 1023) :
    ({ s with par := p } : State).evalStage = { s.evalStage with par := p } := by
  rcases stage_cases s.st with hst | hst | hst
  · rw [evalStage_idle hst, evalStage_idle (s := { s with par := p }) hst]
  · rw [evalStage_attack hst (h hst), evalStage_attack (s := { s with par := p }) hst (h hst)]
    rfl
  · by_cases hp : s.gr.toNat < 65535 - s.ph.toNat
    · rw [evalStage_ramp hst hp, evalStage_ramp (s := { s with par := p }) hst hp]
      rfl
    · have hend := Nat.le_of_not_lt hp
      rw [evalStage_rampEnd hst hend, evalStage_rampEnd (s := { s with par := p }) hst hend]
      rfl

/-- Settles O48: without an edge phase 1 reads no control parameter, and below the threshold phase 2 reads none. -/
theorem parametersLatchedAtStageEntry : Obligations.ParametersLatchedAtStageEntry := by
  intro g s p hl hu hno hv
  refine ⟨_, execEnv_next.2 ⟨hl, hu, rfl⟩, execEnv_next.2 ⟨hl, hu, ?_⟩⟩
  have hpar : ({ s with par := p } : State).envStep g = { s.envStep g with par := p } := by
    rw [envStep_of_noEdge hno, envStep_of_noEdge (s := { s with par := p }) hno]
    exact evalStage_par (s := { s with db := s.heldDb }) p hv
  rw [hpar]
  rfl

/-- Settles O33: an attack's first value, over a curve that starts within one 256th of full scale. -/
theorem assertionDropsOutput : Obligations.AssertionDropsOutput := by
  intro s t hp hdb h
  obtain ⟨-, -, rfl⟩ := execEnv_next.1 h
  have hcurve := curveValue_zero_ge hp.2.2
  have hval : s.assertionEdge.attackValue =
      (65535 - curveValue s.params.curveTable 0#16) * 1200 / 65536 := rfl
  have hle : s.assertionEdge.attackValue ≤ 4 := by omega
  rw [State.setLpc_out, envStep_assertion hp hdb, ofNat_toNat_of_le (by omega)]
  exact hle

/-- Settles O36: the release's first value is its captured output scaled by the curve's start (`scaled_lt`). -/
theorem releaseStartsBelowOutput : Obligations.ReleaseStartsBelowOutput := by
  intro s t hdb ho h
  obtain ⟨-, -, rfl⟩ := execEnv_next.1 h
  have hpos : 0 < s.out.toNat := Nat.pos_of_ne_zero fun h0 => ho (BitVec.eq_of_toNat_eq h0)
  have hlt := scaled_lt (curveValue_le s.params.curveTable 0#16) hpos
  have hle := level_le s.out
  rw [State.setLpc_out, envStep_releaseToRamp hdb ho, BitVec.toNat_ofNat, rampValue_releaseToRamp]
  omega

end Sys2Proof.Machine
end

section
/-! Claims over several envelope steps: the debounce hold, entering and leaving the attack, and the ramps
(spec/42_envelope.md R160 to R165, spec/70_reset_and_hazards.md R254 to R258). -/

namespace Sys2Proof.Machine

variable {g : Bit} {s : State}

theorem evalStage_db (s : State) : s.evalStage.db = s.db := by rw [evalStage_frame]

theorem envStep_db_of_noEdge (hno : s.noEdge g) : (s.envStep g).db = s.heldDb := by
  rw [envStep_of_noEdge hno, evalStage_db]

/-- Phase 2 never enters an attack (R157 to R164). -/
theorem evalStage_ne_attacking (h : s.st ≠ .attacking) : s.evalStage.st ≠ .attacking := by
  cases hst : s.st with
  | idle => rwa [evalStage_idle hst]
  | attacking => exact absurd hst h
  | decayRelease =>
    by_cases hp : s.gr.toNat < 65535 - s.ph.toNat
    · rwa [evalStage_ramp hst hp]
    · rw [evalStage_rampEnd hst (Nat.le_of_not_lt hp)]
      exact nofun

/-- A release leaves the attack (R155, R156). -/
theorem releaseEdge_ne_attacking (s : State) : s.releaseEdge.st ≠ .attacking := by
  by_cases ho : s.out = 0#10
  · rw [releaseEdge_of_out_zero ho]; exact nofun
  · rw [releaseEdge_of_out_ne_zero ho]; exact nofun

/-- An envelope step enters the attack by the assertion edge only (R153). -/
theorem envStep_attacking (h : (s.envStep g).st = .attacking) :
    s.st = .attacking ∨ (g = 0#1 ∧ s.db = 0#7) := by
  rcases edge_cases g s with hno | ⟨hdb, hg⟩ | ⟨hdb, rfl⟩
  · refine .inl (by_contra fun hne => ?_)
    rw [envStep_of_noEdge hno] at h
    exact evalStage_ne_attacking (s := { s with db := s.heldDb }) hne h
  · exact .inr ⟨hg, hdb⟩
  · rw [State.envStep, edgeDetect_release hdb] at h
    exact absurd h (evalStage_ne_attacking (releaseEdge_ne_attacking s))

/-- An action is an envelope step or none. -/
theorem env_or_not (i : Instr) : (∃ g, i = .env g) ∨ ∀ g, i ≠ .env g := by
  by_cases h : ∃ g, i = .env g
  · exact .inl h
  · exact .inr (not_exists.1 h)

/-- Settles O43: no other action writes `ST`, and an envelope step enters the attack by the assertion edge only. -/
theorem onlyAssertionEntersAttack : Obligations.OnlyAssertionEntersAttack := by
  intro i s t h hst
  rcases env_or_not i with ⟨g, rfl⟩ | hi
  · obtain ⟨-, -, rfl⟩ := execEnv_next.1 h
    exact (envStep_attacking hst).imp_right fun ⟨hg, hdb⟩ => ⟨congrArg Instr.env hg, hdb⟩
  · exact .inl ((exec_sameEngine h hi).st.symm.trans hst)

/-- With the gate asserted and the counter not 0 there is no edge (R151, R152). -/
theorem noEdge_of_asserted (h : s.db ≠ 0#7) : s.noEdge 0#1 := by
  rcases edge_cases 0#1 s with hno | ⟨hdb, -⟩ | ⟨-, hg⟩
  · exact hno
  · exact absurd hdb h
  · exact absurd hg (by decide)

/-- Settles O44: being out of the attack with the note held is kept by every action but a step that reads the gate
released, since the counter, once not 0, only counts down to 1. -/
theorem noRetriggerWithoutRelease : Obligations.NoRetriggerWithoutRelease := by
  intro acts s t hst hdb hacts h
  refine runActions_induction (P := fun u => u.st ≠ .attacking ∧ u.db ≠ 0#7) ?_ ⟨hst, hdb⟩ h
  rintro i hi u v ⟨hust, hudb⟩ hstep
  refine ⟨fun hv => ?_, ?_⟩
  · rcases onlyAssertionEntersAttack i u v hstep hv with hu | ⟨-, hu⟩
    · exact hust hu
    · exact hudb hu
  · rcases env_or_not i with ⟨g, rfl⟩ | hne
    · obtain rfl : g = 0#1 := (bit_cases g).resolve_right fun hg => hacts (hg ▸ hi)
      obtain ⟨-, -, rfl⟩ := execEnv_next.1 hstep
      rw [State.setLpc_db, envStep_db_of_noEdge (noEdge_of_asserted hudb)]
      exact mt (heldDb_eq_zero_iff u).1 hudb
    · rw [(exec_sameEngine hstep hne).db]
      exact hudb

/-- While the counter exceeds the envelope steps of a run, each of them takes one off it (R151). -/
theorem db_toNat_runActions (acts : List Instr) {s t : State} (hn : acts.countP isEnv < s.db.toNat)
    (h : runActions acts s = .next t) : t.db.toNat = s.db.toNat - acts.countP isEnv := by
  induction acts generalizing s with
  | nil => cases h; rfl
  | cons i rest ih =>
    obtain ⟨u, hu, hrest⟩ := runActions_cons_next.1 h
    rw [List.countP_cons] at hn ⊢
    rcases env_or_not i with ⟨g, rfl⟩ | hne
    · obtain ⟨-, -, rfl⟩ := execEnv_next.1 hu
      simp only [isEnv, if_true] at hn ⊢
      have hdb : ((s.envStep g).setLpc .clru).db.toNat = s.db.toNat - 1 := by
        rw [State.setLpc_db, envStep_db_of_noEdge (.inl (by omega)), heldDb_toNat (by omega)]
      rw [ih (by omega) hrest, hdb]
      omega
    · have hi : isEnv i = false := by
        cases i with
        | env g => exact absurd rfl (hne g)
        | tick | clru | samp | loop => rfl
      simp only [hi, Bool.false_eq_true, if_false, Nat.add_zero] at hn ⊢
      have hdb := (exec_sameEngine hu hne).db
      rw [← hdb] at hn ⊢
      exact ih hn hrest

/-- Settles O45: the counter at 100 exceeds the at most 99 steps. -/
theorem debounceCountsEnvelopeSteps : Obligations.DebounceCountsEnvelopeSteps := by
  intro acts s t hdb h hn
  have hcount := db_toNat_runActions acts (s := s) (t := t)
  rw [hdb, BitVec.toNat_ofNat] at hcount
  exact hcount (by omega) h

/-- A gate level that stays what it was: released after the release edge, asserted before it (R152). -/
abbrev State.steadyGate (g : Bit) (s : State) : Prop :=
  (s.db = 0#7 ∧ g = 1#1) ∨ (s.db ≠ 0#7 ∧ g = 0#1)

theorem noEdge_of_steadyGate (h : s.steadyGate g) : s.noEdge g := by
  rcases h with ⟨hdb, rfl⟩ | ⟨hdb, rfl⟩
  · exact .inr (.inr ⟨hdb, rfl⟩)
  · exact noEdge_of_asserted hdb

/-- A steady gate stays steady, since the hold keeps the counter on its side of 0 (R151). -/
theorem steadyGate_of_heldDb {t : State} (h : s.steadyGate g) (ht : t.db = s.heldDb) : t.steadyGate g := by
  have hiff := heldDb_eq_zero_iff s
  rw [← ht] at hiff
  rcases h with ⟨hdb, hg⟩ | ⟨hdb, hg⟩
  · exact .inl ⟨hiff.2 hdb, hg⟩
  · exact .inr ⟨mt hiff.1 hdb, hg⟩

/-- A later phase of one ramp has no greater value (R165 item 4). -/
theorem rampValue_le_of_phase_le {t : State} (hp : s.params.legal) (hph : s.ph.toNat ≤ t.ph.toNat)
    (hdsc : t.dsc = s.dsc) (htgt : t.tgt = s.tgt) (hparams : t.params = s.params) : t.rampValue ≤ s.rampValue := by
  have hcurve := curveNeverRises s.params.curveTable s.ph t.ph hp.2.2 hph
  rw [State.rampValue, State.rampValue, hdsc, htgt, hparams]
  exact Nat.add_le_add_right (Nat.div_le_div_right (Nat.mul_le_mul_right _ hcurve)) _

/-- What an envelope step puts out in a ramp with no edge, whether or not the ramp ends in it (R162). -/
theorem envStep_decayRelease_out (hno : s.noEdge g) (hst : s.st = .decayRelease) :
    (s.envStep g).out = BitVec.ofNat 10 s.rampValue := by
  by_cases hp : s.gr.toNat < 65535 - s.ph.toNat
  · rw [envStep_ramp hno hst hp]
  · rw [envStep_rampEnd hno hst (Nat.le_of_not_lt hp)]

/-- Settles O40: the second step puts out the first's value again where the ramp ended, and else the value at a later
phase of the same ramp. -/
theorem rampNeverRises : Obligations.RampNeverRises := by
  intro g s t u x hinv hst hgate ht ust uph ugr udsc utgt uout udb uparams hx
  obtain ⟨-, -, rfl⟩ := execEnv_next.1 ht
  obtain ⟨-, -, rfl⟩ := execEnv_next.1 hx
  have hno : s.noEdge g := noEdge_of_steadyGate hgate
  have hnou : u.noEdge g := noEdge_of_steadyGate (steadyGate_of_heldDb hgate (udb.trans (envStep_db_of_noEdge hno)))
  have hfits := (rampValue_bounds hinv hst).1
  rw [State.setLpc_out, State.setLpc_out]
  by_cases hp : s.gr.toNat < 65535 - s.ph.toNat
  · rw [envStep_ramp hno hst hp] at ust uph udsc utgt uparams ⊢
    have hph : s.ph.toNat ≤ u.ph.toNat := by
      rw [uph, State.setLpc_ph, advance_toNat_of_lt hp]
      exact Nat.le_add_right _ _
    have hle : u.rampValue ≤ s.rampValue := rampValue_le_of_phase_le hinv.params_legal hph udsc utgt uparams
    rw [envStep_decayRelease_out hnou (ust.trans hst), ofNat_toNat_of_le hfits, ofNat_toNat_of_le (hle.trans hfits)]
    exact hle
  · rw [envStep_rampEnd hno hst (Nat.le_of_not_lt hp)] at ust uout ⊢
    rw [envStep_idle hnou ust]
    exact le_of_eq (congrArg BitVec.toNat uout)

theorem envSteps_replicate_succ (k : Nat) (g : Bit) (s : State) :
    envSteps (List.replicate (k + 1) g) s = (envSteps (List.replicate k g) s).envStep g := by
  rw [envSteps, List.replicate_succ', List.foldl_append]
  rfl

/-- What a ramp with a steady gate is like after `k` steps that leave room (R163). -/
structure RampAfter (g : Bit) (s : State) (k : Nat) (t : State) : Prop where
  st : t.st = .decayRelease
  ph : t.ph.toNat = k * s.gr.toNat
  gr : t.gr = s.gr
  gate : t.steadyGate g

/-- Each step before phase 65535 is reached advances the ramp by one granule. -/
theorem rampAfter_envSteps (hst : s.st = .decayRelease) (hph : s.ph = 0#16) (hgate : s.steadyGate g) (k : Nat)
    (hk : k * s.gr.toNat < 65535) : RampAfter g s k (envSteps (List.replicate k g) s) := by
  induction k with
  | zero => exact ⟨hst, by rw [Nat.zero_mul]; exact congrArg BitVec.toNat hph, rfl, hgate⟩
  | succ k ih =>
    rw [Nat.succ_mul] at hk
    obtain ⟨tst, tph, tgr, tgate⟩ := ih (by omega)
    have hno := noEdge_of_steadyGate tgate
    have hroom : (envSteps (List.replicate k g) s).gr.toNat <
        65535 - (envSteps (List.replicate k g) s).ph.toNat := by
      rw [tgr, tph]; omega
    rw [envSteps_replicate_succ, envStep_ramp hno tst hroom]
    refine ⟨tst, ?_, tgr, steadyGate_of_heldDb tgate rfl⟩
    rw [advance_toNat_of_lt hroom, tph, tgr, Nat.succ_mul]

/-- Before the rounded-up quotient of steps a ramp has not covered 65535 phases (R163). -/
theorem lt_ceil_iff {k n : Nat} (hn : 1 ≤ n) : k < (65535 + n - 1) / n ↔ k * n < 65535 := by
  rw [← Nat.succ_le_iff, Nat.le_div_iff_mul_le hn, Nat.succ_mul]
  omega

/-- Settles O41: the ramp before its last step, and the last step, which finds no room. -/
theorem rampEndsAfterCeilSteps : Obligations.RampEndsAfterCeilSteps := by
  intro g s hst hph hgr hgate
  refine ⟨fun k hk => ?_, ?_⟩
  · have hafter := rampAfter_envSteps hst hph hgate k ((lt_ceil_iff hgr).1 hk)
    exact ⟨hafter.st, hafter.ph⟩
  · have hpos : 0 < (65535 + s.gr.toNat - 1) / s.gr.toNat := (lt_ceil_iff hgr).2 (by omega)
    obtain ⟨k, hk⟩ : ∃ k, (65535 + s.gr.toNat - 1) / s.gr.toNat = k + 1 := ⟨_, (Nat.succ_pred hpos.ne').symm⟩
    have hbefore : k * s.gr.toNat < 65535 := (lt_ceil_iff hgr).1 (by omega)
    have hlast : ¬ (k + 1) * s.gr.toNat < 65535 := fun h => absurd ((lt_ceil_iff hgr).2 h) (by omega)
    rw [Nat.succ_mul] at hlast
    obtain ⟨tst, tph, tgr, tgate⟩ := rampAfter_envSteps hst hph hgate k hbefore
    have hend : 65535 - (envSteps (List.replicate k g) s).ph.toNat ≤
        (envSteps (List.replicate k g) s).gr.toNat := by
      rw [tgr, tph]; omega
    rw [hk, envSteps_replicate_succ, envStep_rampEnd (noEdge_of_steadyGate tgate) tst hend]
    exact ⟨rfl, rfl⟩

/-- In the last segment the curve is the floored share of the last entry (R133). -/
theorem curveValue_of_last_segment (t : CurveTable) {p : Phase} (hp : 65280 ≤ p.toNat) :
    curveValue t p = t[255].toNat * (255 - p.toNat % 256) / 256 := by
  have hlt := p.isLt
  rw [curveValue_eq, show p.toNat / 256 = 255 by omega, entryAt_256, entryAt_of_lt (by decide), Nat.zero_add,
    Nat.sub_zero]

/-- In the last segment the curve does not exceed the last entry. -/
theorem curveValue_le_last_entry (t : CurveTable) {p : Phase} (hp : 65280 ≤ p.toNat) :
    curveValue t p ≤ t[255].toNat := by
  rw [curveValue_of_last_segment t hp]
  exact share_le _ _

/-- Settles O42: a ramp ends in the last segment, where the curve is at most 63 and a release's scale at most 1023. -/
theorem releaseSettlesAtZero : Obligations.ReleaseSettlesAtZero := by
  intro s t hinv hst hdb htable h htst
  obtain ⟨-, -, rfl⟩ := execEnv_next.1 h
  have hno : s.noEdge 1#1 := .inr (.inr ⟨hdb, rfl⟩)
  have hend : 65535 - s.ph.toNat ≤ s.gr.toNat := by
    by_contra hp
    rw [envStep_ramp hno hst (Nat.lt_of_not_le hp)] at htst
    cases hst.symm.trans htst
  have hgr := s.gr.isLt
  obtain ⟨htgt, -, hdsc⟩ := hinv.release hst hdb
  have hcurve : curveValue s.params.curveTable s.ph ≤ 63 := by
    rw [curveValue_of_last_segment _ (by omega)]
    have := Nat.mul_le_mul htable (Nat.sub_le 255 (s.ph.toNat % 256))
    omega
  have hzero : s.rampValue = 0 := by
    have := Nat.mul_le_mul hcurve hdsc
    rw [State.rampValue, htgt]
    omega
  rw [State.setLpc_out, envStep_rampEnd hno hst hend, hzero]

/-- An envelope step that stays in the attack detected no edge and found a value below the threshold. -/
theorem envStep_of_stays_attacking (hst : s.st = .attacking) (hdb : 1 ≤ s.db.toNat)
    (h : (s.envStep g).st = .attacking) : s.noEdge g ∧ s.attackValue < 1023 := by
  rcases edge_cases g s with hno | ⟨h0, -⟩ | ⟨h1, rfl⟩
  · refine ⟨hno, by_contra fun hv => ?_⟩
    rw [envStep_threshold hno hst (Nat.le_of_not_lt hv)] at h
    cases h
  · rw [h0] at hdb
    exact absurd hdb (by decide)
  · rw [State.envStep, edgeDetect_release h1] at h
    exact absurd h (evalStage_ne_attacking (releaseEdge_ne_attacking s))

/-- Under the premise of R256 an attack below its threshold has not reached the last segment. -/
theorem ph_lt_of_attackValue_lt (hinv : s.Inv) (hst : s.st = .attacking)
    (htable : s.params.curveTable[255].toNat ≤ 9665) (hv : s.attackValue < 1023) : s.ph.toNat < 65280 := by
  by_contra hp
  have hdsc : s.dsc = 1200#11 := BitVec.eq_of_toNat_eq (hinv.attack hst).1
  have hcurve := curveValue_le_last_entry s.params.curveTable (Nat.le_of_not_lt hp)
  exact absurd ((envAttackThreshold.2 s hdsc).2 (hcurve.trans htable)) (Nat.not_le_of_lt hv)

/-- An attack has left `Attacking` before its phase could wrap, the granule being too small to skip the last segment. -/
theorem attack_ends (gs : List Bit) {s : State} (hinv : s.Inv) (hst : s.st = .attacking)
    (htable : s.params.curveTable[255].toNat ≤ 9665) (hlen : 65536 - s.ph.toNat ≤ gs.length) :
    ∃ k, k ≤ gs.length ∧ (envSteps (gs.take k) s).st ≠ .attacking := by
  induction gs generalizing s with
  | nil =>
    have hlt := s.ph.isLt
    rw [List.length_nil] at hlen
    omega
  | cons g gs ih =>
    rw [List.length_cons] at hlen ⊢
    by_cases hstay : (s.envStep g).st = .attacking
    · obtain ⟨hno, hv⟩ := envStep_of_stays_attacking hst (hinv.attack hst).2.2 hstay
      have hph := ph_lt_of_attackValue_lt hinv hst htable hv
      have hpos := hinv.gr_pos
      have hgr := s.gr.isLt
      have hnext : (s.envStep g).ph.toNat = s.ph.toNat + s.gr.toNat := by
        rw [envStep_attack hno hst hv]
        exact advance_toNat_of_lt (by omega)
      obtain ⟨k, hk, hend⟩ := ih (envStep_inv g hinv) hstay (by rwa [envStep_params]) (by omega)
      exact ⟨k + 1, by omega, hend⟩
    · exact ⟨1, by omega, hstay⟩

/-- Settles O46: 65536 steps are enough from any phase. -/
theorem attackEndsForFallingTable : Obligations.AttackEndsForFallingTable := by
  intro s gs hinv hst htable hlen
  obtain ⟨k, hk, hend⟩ := attack_ends gs hinv hst htable (by omega)
  exact ⟨k, hlen ▸ hk, hend⟩

/-- A table that stays at 65535: it falls within its last segment only. -/
def flatTable : CurveTable := Vector.replicate 256 65535#16

/-- The least parameters that go with `flatTable`. -/
def flatParams : Params where
  sampleInterval := 1
  cdWidth := 1
  fTick := 0
  paramInit := Vector.replicate 4 0#10
  curveTable := flatTable

/-- An attack over the flat table with granule 128, which visits the last segment at offsets 0 and 128 only. -/
def flatAttack : State :=
  { State.resetWith flatParams with st := .attacking, gr := 128#8, dsc := 1200#11, tgt := 1200#11, db := 1#7 }

theorem entryAt_flatTable {i : Nat} (h : i < 256) : entryAt flatTable i = 65535 := by
  rw [entryAt_of_lt h]
  simp [flatTable]

theorem flatParams_legal : flatParams.legal :=
  ⟨by decide, by decide, by simp [flatParams, flatTable], fun i => by simp [flatParams, flatTable]⟩

theorem flatAttack_inv : flatAttack.Inv where
  params_legal := flatParams_legal
  out_le := Nat.zero_le _
  gr_pos := by decide
  db_le := by decide
  cd_pos := by decide
  cd_le := by decide
  attack := fun _ => by decide
  decay := nofun
  release := nofun
  started_smp := nofun
  clru_upd := nofun

/-- At the phases `flatAttack` visits the flat table's curve stays far above the threshold's 9665. -/
theorem curveValue_flatTable_ge {p : Phase} (hp : p.toNat % 128 = 0) : 32511 ≤ curveValue flatTable p := by
  have hlt := p.isLt
  by_cases hseg : p.toNat / 256 < 255
  · rw [curveValue_eq, entryAt_flatTable (show p.toNat / 256 + 1 < 256 by omega)]
    omega
  · rw [curveValue_eq, show p.toNat / 256 = 255 by omega, entryAt_256, entryAt_flatTable (by decide)]
    omega

/-- What stays true of `flatAttack` while the gate is asserted. -/
structure FlatAttack (s : State) : Prop where
  st : s.st = .attacking
  db : s.db = 1#7
  dsc : s.dsc = 1200#11
  gr : s.gr = 128#8
  ph : s.ph.toNat % 128 = 0
  params : s.params = flatParams

/-- The phase wraps among the multiples of 128, none of which reaches the threshold (R161). -/
theorem flatAttack_envStep (h : FlatAttack s) : FlatAttack (s.envStep 0#1) := by
  obtain ⟨hst, hdb, hdsc, hgr, hph, hparams⟩ := h
  have hno : s.noEdge 0#1 := noEdge_of_asserted (by rw [hdb]; decide)
  have hcurve : 32511 ≤ curveValue s.params.curveTable s.ph := hparams ▸ curveValue_flatTable_ge hph
  have hv : s.attackValue < 1023 := by
    refine Nat.lt_of_not_le fun hle => ?_
    have := (envAttackThreshold.2 s hdsc).1 hle
    omega
  have hheld : s.heldDb = 1#7 := (heldDb_of_le_one (by rw [hdb]; decide)).trans hdb
  rw [envStep_attack hno hst hv]
  refine ⟨hst, hheld, hdsc, hgr, ?_, hparams⟩
  rw [advance_toNat, hgr, BitVec.toNat_ofNat]
  omega

/-- Settles O47: `flatAttack`, by induction on the number of steps. -/
theorem attackMayNeverEnd : Obligations.AttackMayNeverEnd := by
  refine ⟨flatAttack, flatAttack_inv, rfl, fun n => ?_⟩
  have hflat : FlatAttack (envSteps (List.replicate n 0#1) flatAttack) := by
    induction n with
    | zero => exact ⟨rfl, rfl, rfl, rfl, rfl, rfl⟩
    | succ n ih =>
      rw [envSteps_replicate_succ]
      exact flatAttack_envStep ih
  exact hflat.st

end Sys2Proof.Machine
end

section
/-! Ticks, and the events of a run (spec/40_dispatch_loop.md R100 to R103). -/

namespace Sys2Proof.Machine

/-- Settles O18: the tick's record (`execTick_eq`). -/
theorem tickAlwaysEnabled : Obligations.TickAlwaysEnabled := fun s =>
  ⟨_, execTick_eq s, rfl, fun h => by simp [h]⟩

/-- The remainder of the next number, which is 0 where the divisor divides it. -/
theorem succ_mod_cases {n m : Nat} (hm : 1 ≤ m) :
    (m ∣ n + 1 ∧ n % m = m - 1 ∧ (n + 1) % m = 0) ∨ (¬ m ∣ n + 1 ∧ n % m < m - 1 ∧ (n + 1) % m = n % m + 1) := by
  have hlt : n % m < m := Nat.mod_lt n hm
  have hmod : (n + 1) % m = (n % m + 1) % m := (Nat.mod_add_mod n m 1).symm
  rcases Nat.eq_or_lt_of_le hlt with heq | hlt'
  · rw [show n % m + 1 = m from heq, Nat.mod_self] at hmod
    exact .inl ⟨Nat.dvd_of_mod_eq_zero hmod, by omega, hmod⟩
  · rw [Nat.mod_eq_of_lt hlt'] at hmod
    refine .inr ⟨fun hd => ?_, by omega, hmod⟩
    rw [Nat.mod_eq_zero_of_dvd hd] at hmod
    omega

/-- What `n` ticks from a full countdown lead to (R101): the countdown runs on with `SMP` set (D14). -/
structure AfterTicks (s : State) (n : Nat) (t : State) : Prop where
  cd : t.cd = s.params.sampleInterval - n % s.params.sampleInterval
  smp : t.smp = true ↔ s.smp = true ∨ s.params.sampleInterval ≤ n
  events : t.events = s.events ++ List.replicate n (.duty s.out)
  out : t.out = s.out
  params : t.params = s.params

variable {s : State}

/-- The tick after `n` ticks finds the countdown at 1 exactly where it is a multiple of the interval (R101). -/
theorem AfterTicks.cd_sub_one_eq_zero_iff {n : Nat} {t : State} (h : AfterTicks s n t)
    (hm : 1 ≤ s.params.sampleInterval) : t.cd - 1 = 0 ↔ s.params.sampleInterval ∣ n + 1 := by
  rw [h.cd]
  rcases succ_mod_cases (n := n) hm with ⟨hd, hmod, -⟩ | ⟨hd, hmod, -⟩
  · simp only [hd, iff_true]; omega
  · simp only [hd, iff_false]; omega

/-- One tick more. -/
theorem AfterTicks.tick {n : Nat} {t : State} (h : AfterTicks s n t) (hm : 1 ≤ s.params.sampleInterval) :
    ∃ u, exec .tick t = .next u ∧ AfterTicks s (n + 1) u := by
  refine ⟨_, execTick_eq t, ⟨?_, ?_, ?_, h.out, h.params⟩⟩
  · have hcd := h.cd
    simp only [h.cd_sub_one_eq_zero_iff hm, h.params]
    rcases succ_mod_cases (n := n) hm with ⟨hd, -, hmod⟩ | ⟨hd, hlt, hmod⟩
    · rw [if_pos hd, hmod, Nat.sub_zero]
    · rw [if_neg hd]
      omega
  · simp only [Bool.or_eq_true, decide_eq_true_eq, h.smp, h.cd_sub_one_eq_zero_iff hm, or_assoc]
    refine or_congr_right ⟨fun hle => ?_, fun hle => ?_⟩
    · rcases hle with hle | hd
      · exact Nat.le_succ_of_le hle
      · exact Nat.le_of_dvd (Nat.succ_pos n) hd
    · rcases Nat.le_or_eq_of_le_succ hle with hle | heq
      · exact .inl hle
      · exact .inr (dvd_of_eq heq)
  · rw [h.events, h.out, List.append_assoc, List.replicate_succ']

theorem afterTicks_runActions (hm : 1 ≤ s.params.sampleInterval) (hcd : s.cd = s.params.sampleInterval) (n : Nat) :
    ∃ t, runActions (List.replicate n .tick) s = .next t ∧ AfterTicks s n t := by
  induction n with
  | zero =>
    refine ⟨s, rfl, ⟨?_, ?_, (List.append_nil _).symm, rfl, rfl⟩⟩
    · rw [Nat.zero_mod, Nat.sub_zero, hcd]
    · simp only [Nat.le_zero, Nat.ne_of_gt hm, or_false]
  | succ n ih =>
    obtain ⟨t, ht, hafter⟩ := ih
    obtain ⟨u, hu, hafter'⟩ := hafter.tick hm
    refine ⟨u, ?_, hafter'⟩
    rw [List.replicate_succ', runActions_append _ _ ht]
    exact runActions_cons_next.2 ⟨u, hu, rfl⟩

/-- Settles O19: `AfterTicks` after `n` ticks, by induction, and what the next tick's countdown finds. -/
theorem sampleDueEveryInterval : Obligations.SampleDueEveryInterval := by
  intro n s hm hcd
  obtain ⟨t, ht, hafter⟩ := afterTicks_runActions hm hcd n
  refine ⟨t, ht, hafter.cd, hafter.smp, hafter.events, _, execTick_eq _, ?_⟩
  simpa using hafter.cd_sub_one_eq_zero_iff hm

/-- An action adds events, one duty event where it is a tick and none elsewhere (R103 item 5). -/
theorem exec_events {i : Instr} {t : State} (h : exec i s = .next t) :
    ∃ new : List HalEvent, t.events = s.events ++ new ∧
      (new.filter HalEvent.isDuty).length = [i].count .tick := by
  cases i with
  | tick =>
    obtain rfl := execTick_next.1 h
    exact ⟨_, rfl, rfl⟩
  | env g =>
    obtain ⟨-, -, rfl⟩ := execEnv_next.1 h
    exact ⟨[], by simp, rfl⟩
  | clru =>
    obtain ⟨-, rfl⟩ := execClru_next.1 h
    exact ⟨[], by simp, rfl⟩
  | samp r v =>
    obtain ⟨-, rfl⟩ := execSamp_next.1 h
    rcases sampleStep_cases r v s with ⟨-, hstep⟩ | ⟨-, -, hstep⟩ | ⟨-, -, hstep⟩ <;> rw [hstep]
    · exact ⟨[.start s.ch], rfl, rfl⟩
    · exact ⟨[], by simp, rfl⟩
    · exact ⟨[], by simp, rfl⟩
  | loop =>
    obtain ⟨-, rfl⟩ := execLoop_next.1 h
    exact ⟨[], by simp, rfl⟩

/-- Settles O20, by induction on the run: each action's events are counted by `exec_events`. -/
theorem oneDutyEventPerTick : Obligations.OneDutyEventPerTick := by
  intro acts
  induction acts with
  | nil =>
    intro s t h
    cases h
    exact ⟨[], (List.append_nil _).symm, rfl⟩
  | cons i acts ih =>
    intro s t h
    obtain ⟨u, hu, hrest⟩ := runActions_cons_next.1 h
    obtain ⟨new, hnew, hcount⟩ := exec_events hu
    obtain ⟨more, hmore, hcount'⟩ := ih u t hrest
    refine ⟨new ++ more, by rw [hmore, hnew, List.append_assoc], ?_⟩
    rw [List.filter_append, List.length_append, hcount, hcount', ← List.count_append, List.singleton_append]

end Sys2Proof.Machine
end

section
/-! The consumer loop (spec/40_dispatch_loop.md R110 to R117), the sampler's collections (spec/43_sampler.md R192 to R194)
and the source items (spec/30_encoding.md R89, R90). -/

namespace Sys2Proof.Machine

variable {s : State}

theorem exists_exec_env_iff {g : Bit} : (∃ t, exec (.env g) s = .next t) ↔ s.lpc = .top ∧ s.upd = true := by
  simp [exec, execEnv_next]

theorem exists_exec_clru_iff : (∃ t, exec .clru s = .next t) ↔ s.lpc = .clru := by
  simp [exec, execClru_next]

theorem exists_exec_samp_iff {r : Bit} {v : Level} : (∃ t, exec (.samp r v) s = .next t) ↔
    s.smp = true ∧ (s.lpc = .schk ∨ (s.lpc = .top ∧ s.upd = false)) := by
  simp [exec, execSamp_next]

theorem exists_exec_loop_iff : (∃ t, exec .loop s = .next t) ↔
    s.smp = false ∧ (s.lpc = .schk ∨ (s.lpc = .top ∧ s.upd = false)) := by
  simp [exec, execLoop_next]

/-- The consumer action R110's table names for a state, with operands of no effect on whether it is enabled. -/
def consumerAction (s : State) : Instr :=
  if s.lpc = .clru then .clru
  else if s.lpc = .top ∧ s.upd = true then .env 0#1
  else if s.smp = true then .samp 0#1 0#10
  else .loop

theorem consumerAction_ne_tick (s : State) : consumerAction s ≠ .tick := by
  unfold consumerAction
  split_ifs <;> exact nofun

/-- Where neither CLRU nor ENV is enabled, the consumer looks at `SMP` (R110). -/
theorem atSampleCheck_of_not (hc : s.lpc ≠ .clru) (he : ¬ (s.lpc = .top ∧ s.upd = true)) :
    s.lpc = .schk ∨ (s.lpc = .top ∧ s.upd = false) := by
  cases hl : s.lpc with
  | top => exact .inr ⟨rfl, Bool.eq_false_iff.2 fun hu => he ⟨hl, hu⟩⟩
  | clru => exact absurd hl hc
  | schk => exact .inl rfl

/-- The consumer can always go on (R110, R115). -/
theorem exec_consumerAction (s : State) : ∃ t, exec (consumerAction s) s = .next t := by
  unfold consumerAction
  split_ifs with hc he hs
  · exact exists_exec_clru_iff.2 hc
  · exact exists_exec_env_iff.2 he
  · exact exists_exec_samp_iff.2 ⟨hs, atSampleCheck_of_not hc he⟩
  · exact exists_exec_loop_iff.2 ⟨Bool.eq_false_iff.2 hs, atSampleCheck_of_not hc he⟩

/-- The row of a consumer action that takes a step is the one R110's table names for the state. -/
theorem rowOf_eq_of_exec {i : Instr} (hi : i ≠ .tick) (h : ∃ t, exec i s = .next t) :
    rowOf i = rowOf (consumerAction s) := by
  cases i with
  | tick => exact absurd rfl hi
  | env g =>
    obtain ⟨hl, hu⟩ := exists_exec_env_iff.1 h
    simp [consumerAction, hl, hu, rowOf]
  | clru => simp [consumerAction, exists_exec_clru_iff.1 h]
  | samp r v =>
    obtain ⟨hs, hloc⟩ := exists_exec_samp_iff.1 h
    rcases hloc with hl | ⟨hl, hu⟩ <;> simp [consumerAction, *, rowOf]
  | loop =>
    obtain ⟨hs, hloc⟩ := exists_exec_loop_iff.1 h
    rcases hloc with hl | ⟨hl, hu⟩ <;> simp [consumerAction, *, rowOf]

/-- Settles O23: the four enabling conditions, and the one row they name for a state. -/
theorem exactlyOneConsumerOperationEnabled : Obligations.ExactlyOneConsumerOperationEnabled := fun s =>
  ⟨fun _ => exists_exec_env_iff, exists_exec_clru_iff, fun _ _ => exists_exec_samp_iff, exists_exec_loop_iff,
    ⟨consumerAction s, consumerAction_ne_tick s, exec_consumerAction s⟩,
    fun _ _ hi hj h h' => (rowOf_eq_of_exec hi h).trans (rowOf_eq_of_exec hj h').symm,
    fun i _ => (exec_next_or_fault i s).imp_right And.right⟩

/-- Settles O24: the tick that ends the countdown sets `SMP`, and CLRU clears `UPD` alone. -/
theorem sampleDueSurvivesUpdateClear : Obligations.SampleDueSurvivesUpdateClear := by
  intro s hl hcd
  refine ⟨_, runActions_cons_next.2 ⟨_, execTick_eq s, runActions_cons_next.2
    ⟨_, execClru_next.2 ⟨hl, rfl⟩, rfl⟩⟩, ?_, rfl, ?_, rfl⟩
  · simp [hcd]
  · simp [hcd]

/-- Settles O13: at the reset state `LPC` is `TOP` with both flags clear, which enables LOOP alone beside the tick. -/
theorem firstActionsAfterReset : Obligations.FirstActionsAfterReset :=
  ⟨⟨_, execTick_eq _, rfl, rfl⟩, rfl, fun _ => rfl, rfl, fun _ _ => rfl⟩

/-- A poll that is not ready waits (R192). -/
theorem sampleStep_wait {v : Level} (h : s.started = true) : s.sampleStep 0#1 v = s := by
  simp [State.sampleStep, h, conversionReady]

/-- A ready poll collects (R192). -/
theorem sampleStep_collect {v : Level} (h : s.started = true) : s.sampleStep 1#1 v = s.collect v := by
  simp [State.sampleStep, h, conversionReady]

/-- Settles O50: the two branches of a poll. -/
theorem sampPolls : Obligations.SampPolls := by
  refine fun v s hs hloc hstarted => ⟨execSamp_next.2 ⟨⟨hs, hloc⟩, ?_⟩, execSamp_next.2 ⟨⟨hs, hloc⟩, ?_⟩⟩
  · rw [sampleStep_wait hstarted]
    rfl
  · have hch : BitVec.ofNat 2 ((s.ch.toNat + 1) % 4) = s.ch + 1#2 := by
      rw [← BitVec.toNat_inj, BitVec.toNat_ofNat, BitVec.toNat_add, BitVec.toNat_ofNat]
      omega
    rw [sampleStep_collect hstarted, hch]
    rfl

/-- What a collection stores, and the channel it goes on to (R192). -/
theorem collect_par_ch {v : Level} {t : State} (hs : s.started = true) (h : exec (.samp 1#1 v) s = .next t) :
    t.par = s.par.set s.ch.toNat v s.ch.isLt ∧ t.ch = s.ch + 1#2 := by
  obtain ⟨-, rfl⟩ := execSamp_next.1 h
  rw [sampleStep_collect hs]
  exact ⟨rfl, rfl⟩

/-- Reading a parameter store after a write to it (R29). -/
theorem getElem_set_channel (par : ParamStore) (c d : Channel) (v : Level) :
    (par.set c.toNat v c.isLt)[d.toNat]'(d.isLt) = if c = d then v else par[d.toNat]'(d.isLt) := by
  simp only [Vector.getElem_set, BitVec.toNat_inj]

/-- Settles O51: the channel goes through its four values, so that no collection overwrites another. -/
theorem fourCollectionsRefreshAll : Obligations.FourCollectionsRefreshAll := by
  intro s₀ s₁ s₂ s₃ t₀ t₁ t₂ t₃ v₀ v₁ v₂ v₃ hs₀ hs₁ hs₂ hs₃ h₀ hp₀ hc₀ h₁ hp₁ hc₁ h₂ hp₂ hc₂ h₃
  obtain ⟨p₀, c₀⟩ := collect_par_ch hs₀ h₀
  obtain ⟨p₁, c₁⟩ := collect_par_ch hs₁ h₁
  obtain ⟨p₂, c₂⟩ := collect_par_ch hs₂ h₂
  obtain ⟨p₃, c₃⟩ := collect_par_ch hs₃ h₃
  have hch₁ : s₁.ch = s₀.ch + 1#2 := hc₀.trans c₀
  have hch₂ : s₂.ch = s₀.ch + 2#2 := by rw [hc₁, c₁, hch₁, BitVec.add_assoc]; rfl
  have hch₃ : s₃.ch = s₀.ch + 3#2 := by rw [hc₂, c₂, hch₂, BitVec.add_assoc]; rfl
  refine ⟨by rw [c₃, hch₃, BitVec.add_assoc]; exact BitVec.add_zero _, ?_⟩
  simp only [State.parAt, p₃, hp₂, p₂, hp₁, p₁, hp₀, p₀, hch₁, hch₂, hch₃, getElem_set_channel]
  generalize s₀.ch = c
  have hne : c + 3#2 ≠ c ∧ c + 2#2 ≠ c ∧ c + 1#2 ≠ c ∧ c + 3#2 ≠ c + 1#2 ∧ c + 2#2 ≠ c + 1#2 ∧
      c + 3#2 ≠ c + 2#2 := by
    revert c; decide
  obtain ⟨h30, h20, h10, h31, h21, h32⟩ := hne
  simp [h30, h20, h10, h31, h21, h32]

/-- What a stalled converter leaves alone (R193). -/
structure Stalled (s t : State) : Prop where
  par : t.par = s.par
  ch : t.ch = s.ch
  started : s.started = true → t.started = true
  smp : s.smp = true → t.smp = true

/-- An action that is no ready poll collects nothing, and only a collection clears `STARTED` or `SMP` (R192). -/
theorem exec_stalled {i : Instr} {t : State} (hi : isReadySamp i = false) (h : exec i s = .next t) : Stalled s t := by
  cases i with
  | tick =>
    obtain rfl := execTick_next.1 h
    exact ⟨rfl, rfl, id, fun hs => by simp [hs]⟩
  | env g =>
    obtain ⟨-, -, rfl⟩ := execEnv_next.1 h
    constructor <;> simp
  | clru =>
    obtain ⟨-, rfl⟩ := execClru_next.1 h
    exact ⟨rfl, rfl, id, id⟩
  | samp r v =>
    obtain ⟨-, rfl⟩ := execSamp_next.1 h
    rcases sampleStep_cases r v s with ⟨-, hstep⟩ | ⟨-, -, hstep⟩ | ⟨-, rfl, -⟩
    · rw [hstep]
      exact ⟨rfl, rfl, fun _ => rfl, id⟩
    · rw [hstep]
      exact ⟨rfl, rfl, id, id⟩
    · cases hi
  | loop =>
    obtain ⟨-, rfl⟩ := execLoop_next.1 h
    exact ⟨rfl, rfl, id, id⟩

/-- Settles O52: `Stalled` is kept by every action of the run. -/
theorem stalledConverterKeepsParameters : Obligations.StalledConverterKeepsParameters := by
  intro acts s t hacts h
  have hstalled : Stalled s t := by
    refine runActions_induction (P := Stalled s) (fun i hi u v hu hstep => ?_) ⟨rfl, rfl, id, id⟩ h
    have hv := exec_stalled (hacts i hi) hstep
    exact ⟨hv.par.trans hu.par, hv.ch.trans hu.ch, hv.started ∘ hu.started, hv.smp ∘ hu.smp⟩
  exact ⟨hstalled.par, hstalled.ch, hstalled.started, hstalled.smp⟩

theorem runActions_singleton (i : Instr) (s : State) : runActions [i] s = exec i s := by
  rw [runActions]
  cases exec i s <;> rfl

/-- ENV and the CLRU after it (R111, R112). -/
theorem runActions_service {g : Bit} (hl : s.lpc = .top) (hu : s.upd = true) :
    runActions [.env g, .clru] s = .next { s.envStep g with upd := false, lpc := .schk } :=
  runActions_cons_next.2 ⟨_, execEnv_next.2 ⟨hl, hu, rfl⟩, runActions_cons_next.2
    ⟨_, execClru_next.2 ⟨rfl, rfl⟩, rfl⟩⟩

/-- The four actions of `CYCLE g`, from a quiet top of the loop and a countdown the tick does not end (R90, R117). -/
theorem runActions_cycle (g : Bit) (hl : s.lpc = .top) (hu : s.upd = false) (hs : s.smp = false)
    (hcd : s.cd - 1 ≠ 0) :
    runActions [.tick, .env g, .clru, .loop] s = .next
      { s.envStep g with
        duty := some s.out
        events := s.events ++ [.duty s.out]
        cd := s.cd - 1 } := by
  obtain ⟨u, htick, hu'⟩ : ∃ u, exec .tick s = .next u ∧ u =
      { s with duty := some s.out, events := s.events ++ [.duty s.out], upd := true, cd := s.cd - 1 } := by
    refine ⟨_, execTick_eq s, ?_⟩
    simp [hcd]
  have hengine : u.envStep g = setOthers u (s.envStep g) := by
    rw [← envStep_setOthers, hu']
    rfl
  have hservice : runActions [.env g, .clru] u = .next { u.envStep g with upd := false, lpc := .schk } :=
    runActions_service (by rw [hu']; exact hl) (by rw [hu'])
  refine runActions_cons_next.2 ⟨u, htick, ?_⟩
  rw [show ([.env g, .clru, .loop] : List Instr) = [.env g, .clru] ++ [.loop] from rfl,
    runActions_append _ _ hservice, runActions_singleton]
  refine execLoop_next.2 ⟨⟨?_, .inl rfl⟩, ?_⟩
  · rw [envStep_smp, hu']
    exact hs
  · rw [hengine, setOthers, hu']
    simp [hl, hu]

/-- Settles O11: the machine over the four words runs the actions of `CYCLE g`. -/
theorem cycleServicesOneTick : Obligations.CycleServicesOneTick := by
  intro s g rest hl hu hs hcd hsched
  have hrun := run_of_runActions (runActions_cycle g hl hu hs (by omega)) rest
  rw [show [Instr.tick, .env g, .clru, .loop].map encode ++ rest = s.sched from hsched.symm] at hrun
  exact hrun

/-- Settles O57: the condition on the item is the one on the tick, and its actions are `runActions_cycle`. -/
theorem cycleEnabledOnlyWhereStated : Obligations.CycleEnabledOnlyWhereStated := by
  refine fun g s _ => ⟨?_, fun h => ?_, fun h => if_neg (Bool.eq_false_iff.1 h)⟩
  · have hcycle : s.itemEnabled (.cycle g) = true ↔ _ := cycleEnabled_iff
    have htick : (∃ t, exec .tick s = .next t ∧ t.smp = false) ↔ s.smp = false ∧ s.cd - 1 ≠ 0 := by
      simp [exec, execTick_eq]
    rw [hcycle, htick]
    tauto
  · obtain ⟨hl, hu, hs, hcd⟩ := cycleEnabled_iff.1 h
    rw [runItem_enabled h]
    exact runActions_cycle _ hl hu hs hcd

theorem itemEnabled_start_iff : s.itemEnabled .start = true ↔ s.sampEnabled = true ∧ s.started = false := by
  simp [State.itemEnabled]

theorem itemEnabled_poll_iff : s.itemEnabled .poll = true ↔ s.sampEnabled = true ∧ s.started = true := by
  simp [State.itemEnabled]

theorem itemEnabled_done_iff {v : Nat} :
    s.itemEnabled (.done v) = true ↔ s.sampEnabled = true ∧ s.started = true := by
  simp [State.itemEnabled]

theorem exists_runActions_singleton {i : Instr} (h : ∃ t, exec i s = .next t) :
    ∃ t, runActions [i] s = .next t := by
  rwa [runActions_singleton]

/-- The actions of an enabled item all take their steps (R89, R90). -/
theorem exists_runActions_expand {a : AsmItem} (h : s.itemEnabled a = true) :
    ∃ t, runActions a.expand s = .next t := by
  have of_samp {r : Bit} {v : Level} (hs : s.sampEnabled = true) : ∃ t, runActions [.samp r v] s = .next t :=
    exists_runActions_singleton (exists_exec_samp_iff.2 (sampEnabled_iff.1 hs))
  cases a with
  | tick => exact ⟨_, rfl⟩
  | env | gateOn | gateOff => exact exists_runActions_singleton (exists_exec_env_iff.2 (envEnabled_iff.1 h))
  | clru => exact exists_runActions_singleton (exists_exec_clru_iff.2 (clruEnabled_iff.1 h))
  | loop => exact exists_runActions_singleton (exists_exec_loop_iff.2 (loopEnabled_iff.1 h))
  | samp r v => exact of_samp h
  | start => exact of_samp (itemEnabled_start_iff.1 h).1
  | poll => exact of_samp (itemEnabled_poll_iff.1 h).1
  | done v => exact of_samp (itemEnabled_done_iff.1 h).1
  | service g =>
    obtain ⟨hl, hu⟩ := envEnabled_iff.1 h
    exact ⟨_, runActions_service hl hu⟩
  | cycle g =>
    obtain ⟨hl, hu, hs, hcd⟩ := cycleEnabled_iff.1 h
    exact ⟨_, runActions_cycle _ hl hu hs hcd⟩

/-- Settles O58: an enabled item's actions run, and the machine over their words runs the actions. -/
theorem enabledItemsRunToTheirEnd : Obligations.EnabledItemsRunToTheirEnd := by
  intro a s rest hwf h
  obtain ⟨t, ht⟩ := exists_runActions_expand h
  refine ⟨_, t, assemble_of_wellFormed hwf, (runItem_enabled h).trans ht, ?_⟩
  rw [List.length_map]
  exact run_of_runActions ht rest

/-- An item of one sampler word, where it is enabled (R90, R190). -/
theorem runItem_samp {a : AsmItem} {r : Bit} {v : Level} (ha : a.expand = [.samp r v])
    (h : s.itemEnabled a = true) (hs : s.sampEnabled = true) :
    runItem a s = .next ((s.sampleStep r v).setLpc .top) := by
  rw [runItem_enabled h, ha, runActions_singleton]
  exact execSamp_next.2 ⟨sampEnabled_iff.1 hs, rfl⟩

/-- Settles O59: the branch of the sampler step each item is used for. -/
theorem samplerItemsTakeTheirBranch : Obligations.SamplerItemsTakeTheirBranch := by
  refine fun s => ⟨fun h => ?_, fun h => ?_, fun v _ h => ?_⟩
  · obtain ⟨hs, hstarted⟩ := itemEnabled_start_iff.1 h
    rw [runItem_samp rfl h hs, sampleStep_of_not_started hstarted]
    rfl
  · obtain ⟨hs, hstarted⟩ := itemEnabled_poll_iff.1 h
    rw [runItem_samp rfl h hs, sampleStep_wait hstarted]
    rfl
  · obtain ⟨hs, hstarted⟩ := itemEnabled_done_iff.1 h
    rw [runItem_samp rfl h hs, sampleStep_collect hstarted]
    rfl

end Sys2Proof.Machine
end

section
/-! Infinite runs and their fairness (spec/70_reset_and_hazards.md R261, spec/60_exceptions.md R231). -/

namespace Sys2Proof.Machine

/-- The sequence `f` with `a` before it. -/
def prepend {α : Type} (a : α) (f : Nat → α) : Nat → α
  | 0 => a
  | n + 1 => f n

/-- An action before an infinite run gives an infinite run. -/
theorem InfiniteRun.prepend {i : Instr} {s t : State} {act : Nat → Instr} {st : Nat → State}
    (h : InfiniteRun t act st) (hi : exec i s = .next t) :
    InfiniteRun s (prepend i act) (prepend s st) where
  start := rfl
  next
    | 0 => hi.trans (congrArg _ h.start.symm)
    | n + 1 => h.next n

theorem consumerEnabled_always (s : State) : s.consumerEnabled :=
  ⟨consumerAction s, consumerAction_ne_tick s, exec_consumerAction s⟩

/-- Fairness, the consumer having an enabled action in every state: neither agent ever stops (R231). -/
theorem fair_iff {act : Nat → Instr} {st : Nat → State} :
    Fair act st ↔ (∀ n, ∃ m, n ≤ m ∧ act m = .tick) ∧ (∀ n, ∃ m, n ≤ m ∧ act m ≠ .tick) :=
  ⟨fun h => ⟨h.producer, fun n => h.consumer n (consumerEnabled_always _)⟩,
    fun h => ⟨h.1, fun n _ => h.2 n⟩⟩

/-- What happens again and again still does with one entry more at the front. -/
theorem frequently_prepend {α : Type} {P : α → Prop} {f : Nat → α} (a : α) (h : ∀ n, ∃ m, n ≤ m ∧ P (f m)) (n : Nat) :
    ∃ m, n ≤ m ∧ P (prepend a f m) := by
  obtain ⟨m, hm, hP⟩ := h n
  exact ⟨m + 1, Nat.le_succ_of_le hm, hP⟩

theorem Fair.prepend {i : Instr} {s : State} {act : Nat → Instr} {st : Nat → State} (h : Fair act st) :
    Fair (prepend i act) (prepend s st) := by
  obtain ⟨hticks, hconsumer⟩ := fair_iff.1 h
  exact fair_iff.2 ⟨frequently_prepend (P := (· = .tick)) i hticks, frequently_prepend (P := (· ≠ .tick)) i hconsumer⟩

/-- The state an action leads to, and the state itself where it has no step. -/
def nextState (i : Instr) (s : State) : State :=
  match exec i s with
  | .next t => t
  | .fault _ => s
  | .refused _ => s

theorem exec_nextState {i : Instr} {s : State} (h : ∃ t, exec i s = .next t) : exec i s = .next (nextState i s) := by
  obtain ⟨t, ht⟩ := h
  rw [nextState, ht]

/-- The agents take turns: a tick, then the action R110 gives the consumer. -/
def turnAction (n : Nat) (s : State) : Instr := if n % 2 = 0 then .tick else consumerAction s

/-- The states of the run in which the agents take turns. -/
def turnState (s : State) : Nat → State
  | 0 => s
  | n + 1 => nextState (turnAction n (turnState s n)) (turnState s n)

theorem exec_turnAction (n : Nat) (s : State) : ∃ t, exec (turnAction n s) s = .next t := by
  unfold turnAction
  split
  · exact ⟨_, rfl⟩
  · exact exec_consumerAction s

/-- From every state the agents can take turns for ever, which is fair (R231, R261). -/
theorem exists_fair_run (s : State) : ∃ act st, InfiniteRun s act st ∧ Fair act st := by
  refine ⟨fun n => turnAction n (turnState s n), turnState s,
    ⟨rfl, fun n => exec_nextState (exec_turnAction n _)⟩, fair_iff.2 ⟨fun n => ⟨2 * n, by omega, ?_⟩,
      fun n => ⟨2 * n + 1, by omega, ?_⟩⟩⟩
  · exact if_pos (by omega)
  · show turnAction _ _ ≠ .tick
    rw [turnAction, if_neg (by omega)]
    exact consumerAction_ne_tick _

/-- A reachable state is reached by a list of actions. -/
theorem exists_runActions_of_reachable {p : Params} {s : State} (h : Reachable p s) :
    ∃ acts, runActions acts (State.resetWith p) = .next s := by
  induction h with
  | reset => exact ⟨[], rfl⟩
  | action i _ hstep ih =>
    obtain ⟨acts, hacts⟩ := ih
    exact ⟨acts ++ [i], (runActions_append _ _ hacts).trans ((runActions_singleton _ _).trans hstep)⟩

/-- A finite run goes on for ever, fairly (R261). -/
theorem exists_fair_run_through (acts : List Instr) {s t : State} (h : runActions acts s = .next t) :
    ∃ act st, InfiniteRun s act st ∧ Fair act st ∧ ∃ n, st n = t := by
  induction acts generalizing s with
  | nil =>
    cases h
    obtain ⟨act, st, hrun, hfair⟩ := exists_fair_run t
    exact ⟨act, st, hrun, hfair, 0, hrun.start⟩
  | cons i acts ih =>
    obtain ⟨u, hu, hrest⟩ := runActions_cons_next.1 h
    obtain ⟨act, st, hrun, hfair, n, hn⟩ := ih hrest
    exact ⟨_, _, hrun.prepend hu, hfair.prepend, n + 1, hn⟩

theorem InfiniteRun.reachable {p : Params} {act : Nat → Instr} {st : Nat → State}
    (h : InfiniteRun (State.resetWith p) act st) (n : Nat) : Reachable p (st n) := by
  induction n with
  | zero => rw [h.start]; exact .reset
  | succ n ih => exact .action (act n) ih (h.next n)

/-- Settles O53: the states of a run are reachable, and the finite run to a reachable state goes on for ever, fairly. -/
theorem reachableIffOnFairInfiniteRun : Obligations.ReachableIffOnFairInfiniteRun := by
  intro p s
  have hfair : Reachable p s →
      ∃ act st, InfiniteRun (State.resetWith p) act st ∧ Fair act st ∧ ∃ n, st n = s := fun h =>
    have ⟨acts, hacts⟩ := exists_runActions_of_reachable h
    exists_fair_run_through acts hacts
  refine ⟨⟨fun h => ?_, ?_⟩, ⟨hfair, ?_⟩⟩
  · obtain ⟨act, st, hrun, -, hn⟩ := hfair h
    exact ⟨act, st, hrun, hn⟩
  · rintro ⟨act, st, hrun, n, rfl⟩
    exact hrun.reachable n
  · rintro ⟨act, st, hrun, -, n, rfl⟩
    exact hrun.reachable n

variable {s : State} {act : Nat → Instr} {st : Nat → State}

/-- A stretch of an infinite run is a finite run of its actions (R261). -/
theorem InfiniteRun.runActions_stretch (h : InfiniteRun s act st) (n k : Nat) :
    runActions ((List.range' n k).map act) (st n) = .next (st (n + k)) := by
  induction k generalizing n with
  | zero => rfl
  | succ k ih =>
    rw [List.range'_succ, List.map_cons]
    refine runActions_cons_next.2 ⟨_, h.next n, ?_⟩
    rw [ih (n + 1), Nat.succ_add_eq_add_succ]

/-- Settles O54: the machine over the words of a stretch runs its actions. -/
theorem machineRunsStretchesOfInfiniteRuns : Obligations.MachineRunsStretchesOfInfiniteRuns := by
  intro s act st h n k rest
  have hrun := run_of_runActions (h.runActions_stretch n k) rest
  rw [List.length_map, List.length_range', List.map_map] at hrun
  exact hrun

/-- What a later action satisfies, some first later action satisfies. -/
theorem exists_first {P : Nat → Prop} {n m : Nat} (hm : n ≤ m) (h : P m) :
    ∃ k, n ≤ k ∧ P k ∧ ∀ j, n ≤ j → j < k → ¬ P j := by
  classical
  have hex : ∃ k, n ≤ k ∧ P k := ⟨m, hm, h⟩
  obtain ⟨hle, hP⟩ := Nat.find_spec hex
  exact ⟨Nat.find hex, hle, hP, fun j hj hlt hPj => Nat.find_min hex hlt ⟨hj, hPj⟩⟩

/-- What each action of a stretch keeps holds at its end. -/
theorem holds_at_end {Q : State → Prop} {n k : Nat} (hk : n ≤ k) (hn : Q (st n))
    (hstep : ∀ j, n ≤ j → j < k → Q (st j) → Q (st (j + 1))) : Q (st k) := by
  induction k, hk using Nat.le_induction with
  | base => exact hn
  | succ k hk ih =>
    exact hstep k hk (Nat.lt_succ_self k) (ih fun j hj hlt => hstep j hj (Nat.lt_succ_of_lt hlt))

/-- The consumer's next action after place `n`: only ticks come before it, which leave `LPC` alone and never clear
`UPD` (R100, R231). -/
theorem next_consumer_action (h : InfiniteRun s act st) (hf : Fair act st) (n : Nat) :
    ∃ m, n ≤ m ∧ act m ≠ .tick ∧ (st m).lpc = (st n).lpc ∧ ((st n).upd = true → (st m).upd = true) := by
  obtain ⟨m, hm, hne⟩ := (fair_iff.1 hf).2 n
  obtain ⟨k, hk, hne, hticks⟩ := exists_first (P := fun k => act k ≠ .tick) hm hne
  refine ⟨k, hk, hne, holds_at_end (Q := fun t => t.lpc = (st n).lpc ∧ ((st n).upd = true → t.upd = true))
    hk ⟨rfl, id⟩ fun j hj hlt ⟨hlpc, hupd⟩ => ?_⟩
  have htick : act j = .tick := not_not.1 (hticks j hj hlt)
  have hnext := h.next j
  rw [htick] at hnext
  rw [execTick_next.1 hnext]
  exact ⟨hlpc, fun _ => rfl⟩

/-- A consumer action at `CLRU` is CLRU (R112). -/
theorem eq_clru_of_exec {i : Instr} {t : State} (hi : i ≠ .tick) (hl : s.lpc = .clru) (h : exec i s = .next t) :
    i = .clru := by
  cases i with
  | tick => exact absurd rfl hi
  | clru => rfl
  | env g => cases hl.symm.trans (execEnv_next.1 h).1
  | samp r v => rcases (execSamp_next.1 h).1.2 with hl' | ⟨hl', -⟩ <;> cases hl.symm.trans hl'
  | loop => rcases (execLoop_next.1 h).1.2 with hl' | ⟨hl', -⟩ <;> cases hl.symm.trans hl'

/-- A consumer action at `TOP` with an update due is ENV (R111). -/
theorem eq_env_of_exec {i : Instr} {t : State} (hi : i ≠ .tick) (hl : s.lpc = .top) (hu : s.upd = true)
    (h : exec i s = .next t) : ∃ g, i = .env g := by
  cases i with
  | tick => exact absurd rfl hi
  | clru => cases hl.symm.trans (execClru_next.1 h).1
  | env g => exact ⟨g, rfl⟩
  | samp r v =>
    rcases (execSamp_next.1 h).1.2 with hl' | ⟨-, hu'⟩
    · cases hl.symm.trans hl'
    · cases hu.symm.trans hu'
  | loop =>
    rcases (execLoop_next.1 h).1.2 with hl' | ⟨-, hu'⟩
    · cases hl.symm.trans hl'
    · cases hu.symm.trans hu'

/-- A consumer action at `SCHK` goes back to `TOP` and leaves `UPD` alone (R113, R114). -/
theorem top_of_exec_schk {i : Instr} {t : State} (hi : i ≠ .tick) (hl : s.lpc = .schk) (h : exec i s = .next t) :
    t.lpc = .top ∧ t.upd = s.upd := by
  cases i with
  | tick => exact absurd rfl hi
  | clru => cases hl.symm.trans (execClru_next.1 h).1
  | env g => cases hl.symm.trans (execEnv_next.1 h).1
  | samp r v =>
    obtain ⟨-, rfl⟩ := execSamp_next.1 h
    rcases sampleStep_cases r v s with ⟨-, hstep⟩ | ⟨-, -, hstep⟩ | ⟨-, -, hstep⟩ <;> rw [hstep] <;> exact ⟨rfl, rfl⟩
  | loop =>
    obtain ⟨-, rfl⟩ := execLoop_next.1 h
    exact ⟨rfl, rfl⟩

/-- From `CLRU` a fair run goes on to CLRU (R112). -/
theorem eventually_clru_of_clru (h : InfiniteRun s act st) (hf : Fair act st) {n : Nat} (hl : (st n).lpc = .clru) :
    ∃ m, n ≤ m ∧ act m = .clru := by
  obtain ⟨m, hm, hne, hlpc, -⟩ := next_consumer_action h hf n
  exact ⟨m, hm, eq_clru_of_exec hne (hlpc.trans hl) (h.next m)⟩

/-- From `TOP` with an update due a fair run goes on to ENV (R111). -/
theorem eventually_env_of_top (h : InfiniteRun s act st) (hf : Fair act st) {n : Nat} (hl : (st n).lpc = .top)
    (hu : (st n).upd = true) : ∃ m g, n ≤ m ∧ act m = .env g := by
  obtain ⟨m, hm, hne, hlpc, hupd⟩ := next_consumer_action h hf n
  obtain ⟨g, hg⟩ := eq_env_of_exec hne (hlpc.trans hl) (hupd hu) (h.next m)
  exact ⟨m, g, hm, hg⟩

/-- From `SCHK` a fair run goes back to `TOP`, a due update being kept (R113, R114). -/
theorem eventually_top_of_schk (h : InfiniteRun s act st) (hf : Fair act st) {n : Nat} (hl : (st n).lpc = .schk) :
    ∃ m, n ≤ m ∧ (st m).lpc = .top ∧ ((st n).upd = true → (st m).upd = true) := by
  obtain ⟨m, hm, hne, hlpc, hupd⟩ := next_consumer_action h hf n
  obtain ⟨htop, hsame⟩ := top_of_exec_schk hne (hlpc.trans hl) (h.next m)
  exact ⟨m + 1, Nat.le_succ_of_le hm, htop, fun hu => hsame.trans (hupd hu)⟩

/-- The state after an envelope step of a run (R111). -/
theorem state_after_env (h : InfiniteRun s act st) {m : Nat} {g : Bit} (hg : act m = .env g) :
    st (m + 1) = ((st m).envStep g).setLpc .clru := by
  have hnext := h.next m
  rw [hg] at hnext
  obtain ⟨-, -, ht⟩ := execEnv_next.1 hnext
  exact ht

/-- An envelope step leaves the loop at `CLRU` (R111). -/
theorem lpc_of_env (h : InfiniteRun s act st) {m : Nat} {g : Bit} (hg : act m = .env g) : (st (m + 1)).lpc = .clru := by
  rw [state_after_env h hg]
  rfl

/-- A due update comes to CLRU, by way of `TOP` and ENV where the loop is elsewhere (R231). -/
theorem eventually_clru (h : InfiniteRun s act st) (hf : Fair act st) {n : Nat} (hu : (st n).upd = true) :
    ∃ m, n ≤ m ∧ act m = .clru := by
  have of_top : ∀ k, (st k).lpc = .top → (st k).upd = true → ∃ m, k ≤ m ∧ act m = .clru := by
    intro k hl hk
    obtain ⟨m, g, hm, hg⟩ := eventually_env_of_top h hf hl hk
    obtain ⟨m', hm', hclru⟩ := eventually_clru_of_clru h hf (lpc_of_env h hg)
    exact ⟨m', by omega, hclru⟩
  cases hl : (st n).lpc with
  | clru => exact eventually_clru_of_clru h hf hl
  | top => exact of_top n hl hu
  | schk =>
    obtain ⟨k, hk, htop, hupd⟩ := eventually_top_of_schk h hf hl
    obtain ⟨m, hm, hclru⟩ := of_top k htop (hupd hu)
    exact ⟨m, by omega, hclru⟩

/-- CLRU leaves `UPD` clear and the loop at `SCHK` (R112). -/
theorem after_clru (h : InfiniteRun s act st) {m : Nat} (hm : act m = .clru) :
    (st (m + 1)).upd = false ∧ (st (m + 1)).lpc = .schk := by
  have hnext := h.next m
  rw [hm] at hnext
  obtain ⟨-, ht⟩ := execClru_next.1 hnext
  rw [ht]
  exact ⟨rfl, rfl⟩

/-- A fair run comes to `TOP` again and again (R110). -/
theorem eventually_top (h : InfiniteRun s act st) (hf : Fair act st) (n : Nat) : ∃ m, n ≤ m ∧ (st m).lpc = .top := by
  cases hl : (st n).lpc with
  | top => exact ⟨n, Nat.le_refl n, hl⟩
  | schk =>
    obtain ⟨m, hm, htop, -⟩ := eventually_top_of_schk h hf hl
    exact ⟨m, hm, htop⟩
  | clru =>
    obtain ⟨k, hk, hclru⟩ := eventually_clru_of_clru h hf hl
    obtain ⟨m, hm, htop, -⟩ := eventually_top_of_schk h hf (after_clru h hclru).2
    exact ⟨m, by omega, htop⟩

/-- Only ENV leaves `TOP` (R110). -/
theorem top_of_exec_top {i : Instr} {t : State} (hi : ∀ g, i ≠ .env g) (hl : s.lpc = .top) (h : exec i s = .next t) :
    t.lpc = .top := by
  cases i with
  | tick =>
    obtain rfl := execTick_next.1 h
    exact hl
  | env g => exact absurd rfl (hi g)
  | clru => cases hl.symm.trans (execClru_next.1 h).1
  | samp r v =>
    obtain ⟨-, rfl⟩ := execSamp_next.1 h
    rfl
  | loop =>
    obtain ⟨-, rfl⟩ := execLoop_next.1 h
    rfl

/-- A tick sets `UPD` (R100). -/
theorem upd_after_tick (h : InfiniteRun s act st) {m : Nat} (hm : act m = .tick) : (st (m + 1)).upd = true := by
  have hnext := h.next m
  rw [hm] at hnext
  rw [execTick_next.1 hnext]

/-- Envelope steps never end: with no more of them the loop would stay at `TOP`, where the next tick makes one due. -/
theorem eventually_env (h : InfiniteRun s act st) (hf : Fair act st) (n : Nat) : ∃ m g, n ≤ m ∧ act m = .env g := by
  by_contra hnone
  have hne : ∀ m, n ≤ m → ∀ g, act m ≠ .env g := fun m hm g hg => hnone ⟨m, g, hm, hg⟩
  obtain ⟨k, hk, htop⟩ := eventually_top h hf n
  obtain ⟨m, hm, htick⟩ := hf.producer k
  have htop' : (st (m + 1)).lpc = .top :=
    holds_at_end (Q := fun t => t.lpc = .top) (Nat.le_succ_of_le hm) htop fun j hj _ hl =>
      top_of_exec_top (hne j (by omega)) hl (h.next j)
  obtain ⟨m', g, hm', hg⟩ := eventually_env_of_top h hf htop' (upd_after_tick h htick)
  exact hne m' (by omega) g hg

/-- The duty events so far (R103, R230). -/
def dutyCount (t : State) : Nat := (t.events.filter HalEvent.isDuty).length

/-- An action adds one duty event where it is a tick, and takes none away. -/
theorem dutyCount_exec {i : Instr} {t : State} (h : exec i s = .next t) :
    dutyCount t = dutyCount s + [i].count .tick := by
  obtain ⟨new, hnew, hcount⟩ := exec_events h
  rw [dutyCount, hnew, List.filter_append, List.length_append, hcount]
  rfl

/-- Duty writes never end, since ticks do not. -/
theorem dutyCount_unbounded (h : InfiniteRun s act st) (hf : Fair act st) (k : Nat) : ∃ n, k ≤ dutyCount (st n) := by
  induction k with
  | zero => exact ⟨0, Nat.zero_le _⟩
  | succ k ih =>
    obtain ⟨n, hn⟩ := ih
    obtain ⟨m, hm, htick⟩ := hf.producer n
    have hkept : k ≤ dutyCount (st m) :=
      holds_at_end (Q := fun t => k ≤ dutyCount t) hm hn fun j _ _ hj => by
        rw [dutyCount_exec (h.next j)]
        exact Nat.le_add_right_of_le hj
    refine ⟨m + 1, ?_⟩
    rw [dutyCount_exec (h.next m), htick]
    exact Nat.succ_le_succ hkept

/-- Settles O55: the way of a due update to CLRU, and the envelope steps and ticks that never end. -/
theorem fairRunsServiceUpdates : Obligations.FairRunsServiceUpdates := by
  refine fun s act st h hf => ⟨fun n hu => ?_, eventually_env h hf, dutyCount_unbounded h hf⟩
  obtain ⟨m, hm, hclru⟩ := eventually_clru h hf hu
  exact ⟨m, hm, hclru, (after_clru h hclru).1⟩

/-- A release ramp on its way (R155, R163). -/
structure Releasing (s : State) : Prop where
  st : s.st = .decayRelease
  db : s.db = 0#7
  gr : 1 ≤ s.gr.toNat

/-- Other actions leave the release where it is (R48). -/
theorem releasing_of_sameEngine {t : State} (h : Releasing s) (ht : SameEngine s t) : Releasing t :=
  ⟨ht.st.trans h.st, ht.db.trans h.db, by rw [ht.gr]; exact h.gr⟩

/-- An envelope step with the gate released ends the release, or takes it nearer to phase 65535 (R163). -/
theorem releasing_envStep (h : Releasing s) :
    ((s.envStep 1#1).st = .idle ∧ (s.envStep 1#1).ph = 0#16) ∨
      (Releasing (s.envStep 1#1) ∧ 65535 - (s.envStep 1#1).ph.toNat < 65535 - s.ph.toNat) := by
  have hno : s.noEdge 1#1 := .inr (.inr ⟨h.db, rfl⟩)
  by_cases hp : s.gr.toNat < 65535 - s.ph.toNat
  · have hgr := h.gr
    rw [envStep_ramp hno h.st hp]
    refine .inr ⟨⟨h.st, (heldDb_eq_zero_iff s).2 h.db, h.gr⟩, ?_⟩
    rw [advance_toNat_of_lt hp]
    omega
  · rw [envStep_rampEnd hno h.st (Nat.le_of_not_lt hp)]
    exact .inl ⟨rfl, rfl⟩

/-- The next envelope step of a release finds it as it was. -/
theorem next_env_of_releasing (h : InfiniteRun s act st) (hf : Fair act st) {n : Nat} (hr : Releasing (st n)) :
    ∃ m g, act m = .env g ∧ Releasing (st m) ∧ (st m).ph = (st n).ph := by
  obtain ⟨m, g, hm, hg⟩ := eventually_env h hf n
  obtain ⟨k, hk, ⟨g', hg'⟩, hfirst⟩ := exists_first (P := fun k => ∃ g, act k = .env g) hm ⟨g, hg⟩
  refine ⟨k, g', hg', holds_at_end (Q := fun t => Releasing t ∧ t.ph = (st n).ph) hk ⟨hr, rfl⟩
    fun j hj hlt ⟨hrj, hph⟩ => ?_⟩
  have hsame := exec_sameEngine (h.next j) (not_exists.1 (hfirst j hj hlt))
  exact ⟨releasing_of_sameEngine hrj hsame, hsame.ph.trans hph⟩

/-- A release ends, by induction on the phases left to it. -/
theorem release_ends (h : InfiniteRun s act st) (hf : Fair act st) (hgate : ∀ m, act m ≠ .env 0#1) (n : Nat)
    (hr : Releasing (st n)) : ∃ m, (st m).st = .idle ∧ (st m).ph = 0#16 := by
  induction hleft : 65535 - (st n).ph.toNat using Nat.strong_induction_on generalizing n with
  | h left ih =>
    obtain ⟨m, g, hg, hrm, hph⟩ := next_env_of_releasing h hf hr
    obtain rfl : g = 1#1 := (bit_cases g).resolve_left fun h0 => hgate m (h0 ▸ hg)
    have hafter := state_after_env h hg
    rcases releasing_envStep hrm with hend | ⟨hrel, hnear⟩
    · exact ⟨m + 1, by rw [hafter]; exact hend⟩
    · have hrnext : Releasing (st (m + 1)) := by
        rw [hafter]
        exact ⟨hrel.st, hrel.db, hrel.gr⟩
      refine ih _ ?_ (m + 1) hrnext rfl
      rw [hafter, ← hleft, ← hph]
      exact hnear

/-- Settles O56: a release with no step that reads the gate asserted ends (`release_ends`). -/
theorem fairRunsCompleteReleases : Obligations.FairRunsCompleteReleases := by
  intro s act st h hf hst hdb hgr hgate
  exact release_ends h hf hgate 0 (h.start.symm ▸ ⟨hst, hdb, hgr⟩)

end Sys2Proof.Machine
end
